-- ==== Sys2Proof/Word.lean ====
section
/-! DEFINITION. The word types of the block (R7): every value is unsigned, bit 0 is the least significant bit. -/

namespace Sys2Proof

/-- A bus data word (R6: BUS_DATA_WIDTH is 32 bits). -/
abbrev Word := BitVec 32

/-- One byte of the header, of a payload or of a checksum input. -/
abbrev Byte := BitVec 8

end Sys2Proof
end

