-- ==== Sys2Proof/Config.lean ====
section
/-! DEFINITION. The parameters of R6: the fixed ones as numbers, the two OPEN ones (P_BASE, P_REJECT_EXCESS) as constants
without a body, so that nothing can evaluate them and every theorem holds for each of their values. -/

namespace Sys2Proof.Config

/-- R6: WINDOW_SIZE, the 20 word registers. -/
def windowSize : Nat := 0x50

/-- R50: the aligned region of the bus the block answers in; offsets `windowSize` and above in it are unmapped. -/
def regionSize : Nat := 0x80

/-- R6: MAX_PAYLOAD. -/
def maxPayload : Nat := 65535

/-- R6: CRC_INIT_VALUE. -/
def crcInitValue : BitVec 16 := 0xFFFF#16

/-- R6: CRC_POLY, `x^16 + x^12 + x^5 + 1` with the top term implicit. -/
def crcPoly : BitVec 16 := 0x1021#16

/-- P_REJECT_EXCESS (R6, D16), OPEN: whether VCHECK rejects a frame with bytes after `payload_len`. Log 7. -/
opaque rejectExcess : Bool

/-- The number of the 0x80-byte region the block stands in; OPEN through `pBase`. Log 8. -/
opaque regionIndex : Nat

/-- P_BASE (R6, R50, D3), OPEN: a multiple of 0x80. Log 8. -/
def pBase : Nat := regionSize * regionIndex

end Sys2Proof.Config
end

