-- ==== Sys2Proof/Syntax.lean ====
section
/-! DEFINITION. Syntax: the bus access (format A, R70), the command (format C, R71, R72), the instruction with one
constructor per row of spec/opcode_table.json, the register names of R51, and the named reasons for which a decoder rejects. -/

namespace Sys2Proof

/-- R70: the kind of an access. A write carries its 32-bit data word `w`. -/
inductive AccessKind where
  | read
  | write (w : Word)
deriving DecidableEq, Repr

/-- R70: one bus access: its kind, its byte offset in the window and its size in bits. Log 13: the offset and the size are
unbounded numbers, so that every access a bus could carry is covered. -/
structure Access where
  kind   : AccessKind
  offset : Nat
  size   : Nat
deriving DecidableEq, Repr

/-- R72: the commands that a write to CMD issues. -/
inductive Command where
  | nop
  | pack
  | packZ
  | unpack
  | crcInit
  | crcHdr
  | crcHdrZ
  | crcSet
  | vcheck
  | hdrClr
  | statClr
deriving DecidableEq, Repr

/-- One constructor per row of spec/opcode_table.json, in the table's order: the 11 command words of format C, then the
accesses of format A, whose writes carry their data word. -/
inductive Instr where
  | nop
  | pack
  | packZ
  | unpack
  | crcInit
  | crcHdr
  | crcHdrZ
  | crcSet
  | vcheck
  | hdrClr
  | statClr
  | wrCmd (w : Word)
  | wrVersion (w : Word)
  | wrAudioType (w : Word)
  | wrSampleRate (w : Word)
  | wrChannelCount (w : Word)
  | wrFrameFlag (w : Word)
  | wrFrameSeq (w : Word)
  | wrTimestamp (w : Word)
  | wrPayloadLen (w : Word)
  | wrChecksum (w : Word)
  | wrHdrData (w : Word)
  | wrCrcData (w : Word)
  | wrPayData (w : Word)
  | rdStatus
  | rdVersion
  | rdAudioType
  | rdSampleRate
  | rdChannelCount
  | rdFrameFlag
  | rdFrameSeq
  | rdTimestamp
  | rdPayloadLen
  | rdChecksum
  | rdHdrW0
  | rdHdrW1
  | rdHdrW2
  | rdHlen
  | rdCrc
  | rdPcnt
deriving DecidableEq, Repr

/-- The format-C instruction that a command is (R72). -/
def Command.instr : Command → Instr
  | .nop => .nop
  | .pack => .pack
  | .packZ => .packZ
  | .unpack => .unpack
  | .crcInit => .crcInit
  | .crcHdr => .crcHdr
  | .crcHdrZ => .crcHdrZ
  | .crcSet => .crcSet
  | .vcheck => .vcheck
  | .hdrClr => .hdrClr
  | .statClr => .statClr

/-- An encoded instruction: a bus access (format A, R70) or a command word (format C, R71). Log 14. -/
inductive Encoded where
  | access (a : Access)
  | command (w : Word)
deriving DecidableEq, Repr

/-- R51: the 20 registers of the window. -/
inductive Reg where
  | cmd
  | status
  | version
  | audioType
  | sampleRate
  | channelCount
  | frameFlag
  | frameSeq
  | timestamp
  | payloadLen
  | checksum
  | hdrW0
  | hdrW1
  | hdrW2
  | hdrData
  | hlen
  | crc
  | crcData
  | payData
  | pcnt
deriving DecidableEq, Repr

/-- R201: why an access ends with the bus error response, in the order of R208. The response itself carries no code; the
name is the model's. -/
inductive BusCause where
  /-- The access is not 32 bits wide. -/
  | width
  /-- The offset is not a multiple of 4. -/
  | misaligned
  /-- The offset is 0x50 or above. -/
  | unmapped
  /-- A read of a write-only register (CMD, HDR_DATA, CRC_DATA, PAY_DATA). -/
  | readOfWriteOnly
  /-- A write of a read-only register (STATUS, HDR_W0 to HDR_W2, HLEN, CRC, PCNT). -/
  | writeOfReadOnly
deriving DecidableEq, Repr

/-- R74: why a command word is ILLEGAL, in the order of R208. ERR does not tell these apart; the names are the model's. -/
inductive IllegalCause where
  /-- A bit of RSV (31:5) is 1. -/
  | reservedBits
  /-- OP is 0x9 to 0xF. -/
  | opRange
  /-- Z is 1 on an OP other than 0x1 and 0x4. -/
  | zeroModifier
deriving DecidableEq, Repr

/-- Why the decoder rejects an encoded instruction. -/
inductive Reject where
  | bus (c : BusCause)
  | illegal (c : IllegalCause)
deriving DecidableEq, Repr

end Sys2Proof
end

