-- ==== Sys2Proof/WellFormed.lean ====
section
/-! DEFINITION. Well-formedness of what the host puts on the bus, from R56 and R201 (accesses) and R74 and R77 (command
words), written apart from the decoder's table. An `Instr` itself has no ill-formed term: its only operand is a 32-bit word,
and R76 and R202 give every word a defined effect. -/

namespace Sys2Proof

/-- R56: the access is a 32-bit access. -/
def Access.widthOk (a : Access) : Bool := a.size == 32

/-- R56: the offset is a multiple of 4. -/
def Access.alignedOk (a : Access) : Bool := a.offset % 4 == 0

/-- R56: the offset lies in the register window. -/
def Access.mappedOk (a : Access) : Bool := decide (a.offset < Config.windowSize)

/-- R201: the write-only offsets, of CMD, HDR_DATA, CRC_DATA and PAY_DATA (R51). -/
def writeOnlyOffsets : List Nat := [0x00, 0x38, 0x44, 0x48]

/-- R201: the read-only offsets, of STATUS, HDR_W0, HDR_W1, HDR_W2, HLEN, CRC and PCNT (R51). -/
def readOnlyOffsets : List Nat := [0x04, 0x2C, 0x30, 0x34, 0x3C, 0x40, 0x4C]

/-- R201: a read is not of a write-only register and a write is not of a read-only one. -/
def Access.directionOk (a : Access) : Bool :=
  match a.kind with
  | .read => !writeOnlyOffsets.contains a.offset
  | .write _ => !readOnlyOffsets.contains a.offset

/-- R56, R201: the access passes every bus check. -/
def Access.wellFormed (a : Access) : Bool :=
  a.widthOk && a.alignedOk && a.mappedOk && a.directionOk

/-- R71: RSV, bits 31:5 of a command word, is 0. -/
def commandReservedOk (w : Word) : Bool := w >>> 5 == 0#32

/-- R77: OP, bits 3:0, is at most 0x8. -/
def commandOpOk (w : Word) : Bool := decide (w.toNat % 16 ≤ 8)

/-- R73: Z, bit 4, is 1 only with OP 0x1 (PACK) or OP 0x4 (CRC_HDR). -/
def commandZeroOk (w : Word) : Bool := !w.getLsbD 4 || w.toNat % 16 == 1 || w.toNat % 16 == 4

/-- R74, R77: the word is no ILLEGAL command. -/
def commandWellFormed (w : Word) : Bool :=
  commandReservedOk w && commandOpOk w && commandZeroOk w

/-- An encoded instruction that its format's checks let through. -/
def Encoded.wellFormed : Encoded → Bool
  | .access a => a.wellFormed
  | .command w => commandWellFormed w

end Sys2Proof
end

