-- ==== Sys2Proof/Decode.lean ====
section
/-! DEFINITION. The decoder of bus accesses (R70) and of command words (R71 to R74), the encoder written from the same
tables, and the numbering of spec/opcode_table.json's bits. -/

namespace Sys2Proof

/-- R51: the byte offset of a register in the window. -/
def Reg.offset : Reg → Nat
  | .cmd => 0x00
  | .status => 0x04
  | .version => 0x08
  | .audioType => 0x0C
  | .sampleRate => 0x10
  | .channelCount => 0x14
  | .frameFlag => 0x18
  | .frameSeq => 0x1C
  | .timestamp => 0x20
  | .payloadLen => 0x24
  | .checksum => 0x28
  | .hdrW0 => 0x2C
  | .hdrW1 => 0x30
  | .hdrW2 => 0x34
  | .hdrData => 0x38
  | .hlen => 0x3C
  | .crc => 0x40
  | .crcData => 0x44
  | .payData => 0x48
  | .pcnt => 0x4C

/-- R8, R79: `WR r, w`, the access BusWrite(offset of r, w). -/
def Reg.wr (r : Reg) (w : Word) : Access := ⟨.write w, r.offset, 32⟩

/-- R8, R79: `RD r`, the access BusRead(offset of r). -/
def Reg.rd (r : Reg) : Access := ⟨.read, r.offset, 32⟩

/-- R70: a row of format A: an access key is matched under `mask` against `value`; `build` takes the data word. -/
structure AccessRow where
  mask  : BitVec 8
  value : BitVec 8
  build : Word → Instr

/-- The rows of opcode_table.json that are writes (key bit 7 is 1). -/
def writeRows : List AccessRow :=
  [⟨0xFF, 0x80, .wrCmd⟩,
   ⟨0xFF, 0x88, .wrVersion⟩,
   ⟨0xFF, 0x8C, .wrAudioType⟩,
   ⟨0xFF, 0x90, .wrSampleRate⟩,
   ⟨0xFF, 0x94, .wrChannelCount⟩,
   ⟨0xFF, 0x98, .wrFrameFlag⟩,
   ⟨0xFF, 0x9C, .wrFrameSeq⟩,
   ⟨0xFF, 0xA0, .wrTimestamp⟩,
   ⟨0xFF, 0xA4, .wrPayloadLen⟩,
   ⟨0xFF, 0xA8, .wrChecksum⟩,
   ⟨0xFF, 0xB8, .wrHdrData⟩,
   ⟨0xFF, 0xC4, .wrCrcData⟩,
   ⟨0xFF, 0xC8, .wrPayData⟩]

/-- The rows of opcode_table.json that are reads (key bit 7 is 0). -/
def readRows : List AccessRow :=
  [⟨0xFF, 0x04, fun _ => .rdStatus⟩,
   ⟨0xFF, 0x08, fun _ => .rdVersion⟩,
   ⟨0xFF, 0x0C, fun _ => .rdAudioType⟩,
   ⟨0xFF, 0x10, fun _ => .rdSampleRate⟩,
   ⟨0xFF, 0x14, fun _ => .rdChannelCount⟩,
   ⟨0xFF, 0x18, fun _ => .rdFrameFlag⟩,
   ⟨0xFF, 0x1C, fun _ => .rdFrameSeq⟩,
   ⟨0xFF, 0x20, fun _ => .rdTimestamp⟩,
   ⟨0xFF, 0x24, fun _ => .rdPayloadLen⟩,
   ⟨0xFF, 0x28, fun _ => .rdChecksum⟩,
   ⟨0xFF, 0x2C, fun _ => .rdHdrW0⟩,
   ⟨0xFF, 0x30, fun _ => .rdHdrW1⟩,
   ⟨0xFF, 0x34, fun _ => .rdHdrW2⟩,
   ⟨0xFF, 0x3C, fun _ => .rdHlen⟩,
   ⟨0xFF, 0x40, fun _ => .rdCrc⟩,
   ⟨0xFF, 0x4C, fun _ => .rdPcnt⟩]

/-- Every row of format A. -/
def accessRows : List AccessRow := writeRows ++ readRows

/-- R70: the 8-bit access key, `(kind == W ? 1 : 0) << 7 | offset[6:0]`. -/
def accessKey (a : Access) : BitVec 8 :=
  match a.kind with
  | .read => BitVec.ofNat 8 (a.offset % 128)
  | .write _ => 0x80#8 ||| BitVec.ofNat 8 (a.offset % 128)

/-- The data word of an access; a read has none, and no row of a read looks at it. -/
def AccessKind.data : AccessKind → Word
  | .read => 0#32
  | .write w => w

/-- R70, R208 level 1: width, then alignment, then range, then the access kind, which is the lack of a row. -/
def decodeAccess (a : Access) : Except BusCause Instr :=
  if a.size ≠ 32 then .error .width
  else if a.offset % 4 ≠ 0 then .error .misaligned
  else if Config.windowSize ≤ a.offset then .error .unmapped
  else
    match accessRows.find? fun r => (accessKey a &&& r.mask) == r.value with
    | some r => .ok (r.build a.kind.data)
    | none =>
      match a.kind with
      | .read => .error .readOfWriteOnly
      | .write _ => .error .writeOfReadOnly

/-- R72: the word of a command. -/
def commandWord : Command → Word
  | .nop => 0x00000000#32
  | .pack => 0x00000001#32
  | .packZ => 0x00000011#32
  | .unpack => 0x00000002#32
  | .crcInit => 0x00000003#32
  | .crcHdr => 0x00000004#32
  | .crcHdrZ => 0x00000014#32
  | .crcSet => 0x00000005#32
  | .vcheck => 0x00000006#32
  | .hdrClr => 0x00000007#32
  | .statClr => 0x00000008#32

/-- R72: the commands, one per row of format C. -/
def commandRows : List Command :=
  [.nop, .pack, .packZ, .unpack, .crcInit, .crcHdr, .crcHdrZ, .crcSet, .vcheck, .hdrClr, .statClr]

/-- R71: OP, bits 3:0 of a command word. -/
def commandOp (w : Word) : BitVec 4 := w.extractLsb' 0 4

/-- R71: Z, bit 4 of a command word. -/
def commandZ (w : Word) : Bool := w.getLsbD 4

/-- R71: RSV, bits 31:5 of a command word. -/
def commandRsv (w : Word) : BitVec 27 := w.extractLsb' 5 27

/-- R74, R208 level 2: RSV, then the OP range, then the legality of Z, then the R72 row with that OP and Z. Every word that
passes the three checks has a row, so the last `error` is reached by no word. -/
def decodeCommand (w : Word) : Except IllegalCause Command :=
  if commandRsv w ≠ 0#27 then .error .reservedBits
  else if 0x8#4 < commandOp w then .error .opRange
  else if commandZ w = true ∧ commandOp w ≠ 0x1#4 ∧ commandOp w ≠ 0x4#4 then .error .zeroModifier
  else
    match commandRows.find? fun c => w == commandWord c with
    | some c => .ok c
    | none => .error .opRange

/-- The decoder: an access by R70, a command word by R74. Total; every rejection has a name. -/
def decode : Encoded → Except Reject Instr
  | .access a =>
    match decodeAccess a with
    | .ok i => .ok i
    | .error c => .error (.bus c)
  | .command w =>
    match decodeCommand w with
    | .ok c => .ok c.instr
    | .error c => .error (.illegal c)

/-- The encoder: a command as its word (R72), any other instruction as its bus access (R51, R70). -/
def encode : Instr → Encoded
  | .nop => .command (commandWord .nop)
  | .pack => .command (commandWord .pack)
  | .packZ => .command (commandWord .packZ)
  | .unpack => .command (commandWord .unpack)
  | .crcInit => .command (commandWord .crcInit)
  | .crcHdr => .command (commandWord .crcHdr)
  | .crcHdrZ => .command (commandWord .crcHdrZ)
  | .crcSet => .command (commandWord .crcSet)
  | .vcheck => .command (commandWord .vcheck)
  | .hdrClr => .command (commandWord .hdrClr)
  | .statClr => .command (commandWord .statClr)
  | .wrCmd w => .access (Reg.cmd.wr w)
  | .wrVersion w => .access (Reg.version.wr w)
  | .wrAudioType w => .access (Reg.audioType.wr w)
  | .wrSampleRate w => .access (Reg.sampleRate.wr w)
  | .wrChannelCount w => .access (Reg.channelCount.wr w)
  | .wrFrameFlag w => .access (Reg.frameFlag.wr w)
  | .wrFrameSeq w => .access (Reg.frameSeq.wr w)
  | .wrTimestamp w => .access (Reg.timestamp.wr w)
  | .wrPayloadLen w => .access (Reg.payloadLen.wr w)
  | .wrChecksum w => .access (Reg.checksum.wr w)
  | .wrHdrData w => .access (Reg.hdrData.wr w)
  | .wrCrcData w => .access (Reg.crcData.wr w)
  | .wrPayData w => .access (Reg.payData.wr w)
  | .rdStatus => .access Reg.status.rd
  | .rdVersion => .access Reg.version.rd
  | .rdAudioType => .access Reg.audioType.rd
  | .rdSampleRate => .access Reg.sampleRate.rd
  | .rdChannelCount => .access Reg.channelCount.rd
  | .rdFrameFlag => .access Reg.frameFlag.rd
  | .rdFrameSeq => .access Reg.frameSeq.rd
  | .rdTimestamp => .access Reg.timestamp.rd
  | .rdPayloadLen => .access Reg.payloadLen.rd
  | .rdChecksum => .access Reg.checksum.rd
  | .rdHdrW0 => .access Reg.hdrW0.rd
  | .rdHdrW1 => .access Reg.hdrW1.rd
  | .rdHdrW2 => .access Reg.hdrW2.rd
  | .rdHlen => .access Reg.hlen.rd
  | .rdCrc => .access Reg.crc.rd
  | .rdPcnt => .access Reg.pcnt.rd

/-- R71: the bus access that issues an encoded instruction; a command word goes out as `WR CMD, w`. -/
def Encoded.toAccess : Encoded → Access
  | .access a => a
  | .command w => Reg.cmd.wr w

/-- The bits of an opcode-table row as an encoded instruction (log 14). A row of 32 bits is a command word. Any other row is
a format-A row: bits 7:0 are the access key and the bits above them the data word, so that a row of 8 bits has the data word 0. -/
def tableEncoded (nbits w : Nat) : Encoded :=
  if nbits = 32 then .command (BitVec.ofNat 32 w)
  else .access
    { kind := if w % 256 < 128 then .read else .write (BitVec.ofNat 32 (w / 256)),
      offset := w % 128,
      size := 32 }

/-- The instruction the decoder reads from an opcode-table word. -/
def decodeTableWord (nbits w : Nat) : Option Instr :=
  match decode (tableEncoded nbits w) with
  | .ok i => some i
  | .error _ => none

end Sys2Proof
end

