-- ==== Sys2Proof/Machine/State.lean ====
section
/-! DEFINITION. The state: the block's record of R20, the host's remaining events and the words its reads returned; the
reasons a step can stop; and the state after reset (R38). Plain data throughout. -/

namespace Sys2Proof.Machine

/-- R9, R21: the record `F` of the nine header field registers, each at its width. -/
structure Fields where
  version       : BitVec 4
  audio_type    : BitVec 8
  sample_rate   : BitVec 16
  channel_count : BitVec 2
  frame_flag    : BitVec 2
  frame_seq     : BitVec 16
  timestamp     : BitVec 16
  payload_len   : BitVec 16
  checksum      : BitVec 16
deriving DecidableEq, Repr

/-- R20: the block's whole state. `err`, `valid`, `vdone`, `excess`, `ftrunc` and `hovf` are the fields of STATUS (R27). -/
structure Block where
  fields : Fields
  hdr    : Vector Byte 12
  hlen   : BitVec 4
  crc    : BitVec 16
  pcnt   : BitVec 32
  err    : BitVec 3
  valid  : Bool
  vdone  : Bool
  excess : Bool
  ftrunc : Bool
  hovf   : Bool
deriving DecidableEq, Repr

/-- What the host does next (log 1): an access by window offset (R70), an access by bus address, which reaches the block
where the address lies in its region (log 8), or the reset event (R220, log 4). -/
inductive HostEvent where
  | access (a : Access)
  | busAccess (kind : AccessKind) (address : Nat) (size : Nat)
  | reset
deriving DecidableEq, Repr

/-- The machine: the block, and on the host's side of the bus the events still to come, first one first (log 1), and the
words its reads have returned, oldest first (log 2). -/
structure State where
  block    : Block
  pending  : List HostEvent
  readData : List Word
deriving DecidableEq, Repr

/-- Why the machine stops with a fault. -/
inductive Fault where
  /-- R201: raised by the bus checks of R70, before any instruction runs and with no change of state. "A model treats a bus
  error as a fault of the host program that made it." Safe: the block itself would go on with the next access. Log 3. -/
  | busError (cause : BusCause) (offset : Nat)
deriving DecidableEq, Repr

/-- Why the machine has no meaning for a step. -/
inductive Refusal where
  /-- Raised by `exec` for an instruction that has no meaning yet; no arm raises it. Safe. -/
  | notModelled (mnemonic : String)
  /-- Raised by the step for a bus access whose address lies outside the block's region: some other device answers it, and
  the spec does not say how. Safe. Log 8. -/
  | outsideWindow (address : Nat)
deriving DecidableEq, Repr

/-- R38: the block after reset. -/
def Block.reset : Block :=
  { fields :=
      { version := 0, audio_type := 0, sample_rate := 0, channel_count := 0, frame_flag := 0,
        frame_seq := 0, timestamp := 0, payload_len := 0, checksum := 0 },
    hdr := #v[0, 0, 0, 0, 0, 0, 0, 0, 0, 0, 0, 0],
    hlen := 0, crc := 0xFFFF, pcnt := 0, err := 0,
    valid := false, vdone := false, excess := false, ftrunc := false, hovf := false }

/-- The machine right after reset: the block of R38, with no host event waiting (log 1) and no word read (log 2). -/
def State.reset : State :=
  { block := Block.reset, pending := [], readData := [] }

end Sys2Proof.Machine
end

