-- ==== Sys2Proof/Machine/Codec.lean ====
section
/-! DEFINITION. The codec's two pure functions (R140, R141) over the layout of format H (R75). -/

namespace Sys2Proof.Machine

/-- R140: pack a field record and a checksum value into the 12 header bytes. The field `f.checksum` is not read. -/
def pack12 (f : Fields) (cs : BitVec 16) : Vector Byte 12 :=
  #v[f.version ++ f.audio_type.extractLsb' 4 4,
     f.audio_type.extractLsb' 0 4 ++ f.sample_rate.extractLsb' 12 4,
     f.sample_rate.extractLsb' 4 8,
     f.sample_rate.extractLsb' 0 4 ++ f.channel_count ++ f.frame_flag,
     f.frame_seq.extractLsb' 8 8, f.frame_seq.extractLsb' 0 8,
     f.timestamp.extractLsb' 8 8, f.timestamp.extractLsb' 0 8,
     f.payload_len.extractLsb' 8 8, f.payload_len.extractLsb' 0 8,
     cs.extractLsb' 8 8, cs.extractLsb' 0 8]

/-- R141: read the field record from 12 header bytes. Total; no value is checked. -/
def unpack12 (b : Vector Byte 12) : Fields :=
  { version       := b[0].extractLsb' 4 4,
    audio_type    := b[0].extractLsb' 0 4 ++ b[1].extractLsb' 4 4,
    sample_rate   := b[1].extractLsb' 0 4 ++ b[2] ++ b[3].extractLsb' 4 4,
    channel_count := b[3].extractLsb' 2 2,
    frame_flag    := b[3].extractLsb' 0 2,
    frame_seq     := b[4] ++ b[5],
    timestamp     := b[6] ++ b[7],
    payload_len   := b[8] ++ b[9],
    checksum      := b[10] ++ b[11] }

/-- R11: the zero-checksum image, the 12 header bytes with bytes 10 and 11 set to 0x00. -/
def zeroChecksumImage (h : Vector Byte 12) : Vector Byte 12 := (h.set 10 0x00#8).set 11 0x00#8

/-- R75: the 12 header bytes as the 96-bit value `H`, byte 0 in bits 95:88. -/
def headerValue (h : Vector Byte 12) : BitVec 96 :=
  h[0] ++ h[1] ++ h[2] ++ h[3] ++ h[4] ++ h[5] ++ h[6] ++ h[7] ++ h[8] ++ h[9] ++ h[10] ++ h[11]

end Sys2Proof.Machine
end

