-- ==== Sys2Proof/Machine/Crc.lean ====
section
/-! DEFINITION. The checksum engine's pure functions (R160, R161). -/

namespace Sys2Proof.Machine

/-- R160: one shift of the register: left by one, and the polynomial where the top bit was 1. -/
def crcShift (c : BitVec 16) : BitVec 16 :=
  if c.msb then (c <<< 1) ^^^ Config.crcPoly else c <<< 1

/-- R160: `n` shifts. -/
def crcShifts : Nat → BitVec 16 → BitVec 16
  | 0, c => c
  | n + 1, c => crcShifts n (crcShift c)

/-- R160: `crc_step`: the byte into the high byte of the register, then eight shifts. -/
def crcStep (c : BitVec 16) (b : Byte) : BitVec 16 :=
  crcShifts 8 (c ^^^ (b.setWidth 16 <<< 8))

/-- R161: the register after folding a byte sequence into it, first byte first. -/
def crc16 (s : List Byte) (c : BitVec 16) : BitVec 16 :=
  s.foldl crcStep c

/-- R161: the source's `checksum(bytes)`. -/
def checksumOf (s : List Byte) : BitVec 16 := crc16 s Config.crcInitValue

end Sys2Proof.Machine
end

