-- ==== Sys2Proof/Machine/Operands.lean ====
section
/-! DEFINITION. Operand forms: the truncation of a written word (R76), the register view of HDR (R54), and the offset of a
bus address in the window (R50). -/

namespace Sys2Proof.Machine

/-- R76: the operand of a write to a target of `n` bits is the low `n` bits of the data word. -/
def writeOperand (n : Nat) (w : Word) : BitVec n := w.setWidth n

/-- R76, R100: some bit of the data word above the target's width is 1, so the write loses it. -/
def lostBits (n : Nat) (w : Word) : Bool := w >>> n != 0#32

/-- R7, R51: a register's value as the word a read returns, `zext_32`. -/
def readOperand {n : Nat} (v : BitVec n) : Word := v.setWidth 32

/-- R54: four header bytes as a word, the first byte in bits 31:24. -/
def wordOfBytes (b0 b1 b2 b3 : Byte) : Word := b0 ++ b1 ++ b2 ++ b3

/-- R54: a word as its four bytes in wire order, most significant byte first; how the host splits HDR_W0 to HDR_W2. -/
def bytesOfWord (w : Word) : List Byte :=
  [w.extractLsb' 24 8, w.extractLsb' 16 8, w.extractLsb' 8 8, w.extractLsb' 0 8]

/-- R54, R120: the word HDR_W0. -/
def hdrWord0 (h : Vector Byte 12) : Word := wordOfBytes h[0] h[1] h[2] h[3]

/-- R54, R121: the word HDR_W1. -/
def hdrWord1 (h : Vector Byte 12) : Word := wordOfBytes h[4] h[5] h[6] h[7]

/-- R54, R122: the word HDR_W2. -/
def hdrWord2 (h : Vector Byte 12) : Word := wordOfBytes h[8] h[9] h[10] h[11]

/-- R50: the offset of a bus address in the region that starts at `base`, if it lies there. Log 8. -/
def offsetFrom (base address : Nat) : Option Nat :=
  if base ≤ address ∧ address < base + Config.regionSize then some (address - base) else none

end Sys2Proof.Machine
end

