-- ==== Sys2Proof/Machine/Flags.lean ====
section
/-! DEFINITION. The result codes of ERR (R28), the STATUS word (R27, R110) and the sticky flag FTRUNC (R32). -/

namespace Sys2Proof.Machine

/-- R28: NONE, success. -/
def errNone : BitVec 3 := 0

/-- R28: TRUNCATED_HEADER (R203). -/
def errTruncatedHeader : BitVec 3 := 1

/-- R28: TRUNCATED_FRAME (R204). -/
def errTruncatedFrame : BitVec 3 := 2

/-- R28: LENGTH_EXCESS (R205). -/
def errLengthExcess : BitVec 3 := 3

/-- R28: ILLEGAL_COMMAND (R202). -/
def errIllegalCommand : BitVec 3 := 4

/-- R27, R110: the STATUS word: bit 8 HOVF, 7 FTRUNC, 6 EXCESS, 5 VDONE, 4 VALID, 3 zero, 2:0 ERR, the rest zero. -/
def statusWord (b : Block) : Word :=
  readOperand
    (BitVec.ofBool b.hovf ++ BitVec.ofBool b.ftrunc ++ BitVec.ofBool b.excess ++ BitVec.ofBool b.vdone ++
      BitVec.ofBool b.valid ++ 0#1 ++ b.err)

/-- R32, R100: FTRUNC becomes 1 where a write to a target of `n` bits loses a bit, and is never cleared here. -/
def Block.flagTruncation (n : Nat) (w : Word) (b : Block) : Block :=
  { b with ftrunc := b.ftrunc || lostBits n w }

/-- R182: STAT_CLR's effect on the fields of STATUS. -/
def Block.clearStatus (b : Block) : Block :=
  { b with err := errNone, valid := false, vdone := false, excess := false, ftrunc := false, hovf := false }

end Sys2Proof.Machine
end

