-- ==== Sys2Proof/Machine/Ops.lean ====
section
/-! DEFINITION. The shared operations of the meanings: how a write and a read complete, the truncating write (R100), a
command's result code (R8, R28), the buffers and counters behind the data ports, the bus error (R201), the reset event (R220)
and the taking of the host's next event. The block has no trap mechanism and so no exception entry (R210, R211). -/

namespace Sys2Proof.Machine

/-- A write access completes: its effect on the block is done whole (R58), and nothing is returned to the host. -/
def completeWrite (effect : Block → Block) (s : State) : Host.Outcome State Fault Refusal :=
  .next { s with block := effect s.block }

/-- A read access completes: the word goes to the host (R8), and the block is as before (R57). -/
def completeRead (w : Word) (s : State) : Host.Outcome State Fault Refusal :=
  .next { s with readData := s.readData ++ [w] }

/-- R8, R201: `raise BusError(off)`. -/
def raiseBusError (cause : BusCause) (offset : Nat) : Host.Outcome State Fault Refusal :=
  .fault (.busError cause offset)

/-- R100: `trunc_write`. `put` stores the operand in the target field register. -/
def truncWrite (n : Nat) (put : Fields → BitVec n → Fields) (w : Word) (b : Block) : Block :=
  { b.flagTruncation n w with fields := put b.fields (writeOperand n w) }

/-- R8: `fail(code)`, and with NONE the success that ends every other command. -/
def Block.result (code : BitVec 3) (b : Block) : Block := { b with err := code }

/-- R144: one byte into HDR at index HLEN, or dropped and flagged where HLEN is 12 already. Log 6. -/
def Block.appendHeader (x : Byte) (b : Block) : Block :=
  if b.hlen < 12#4 then { b with hdr := b.hdr.setIfInBounds b.hlen.toNat x, hlen := b.hlen + 1#4 }
  else { b with hovf := true }

/-- R142, R143: the field registers and a checksum value packed into HDR, which is then full. -/
def Block.packHeader (cs : BitVec 16) (b : Block) : Block :=
  { b with hdr := pack12 b.fields cs, hlen := 12#4 }

/-- R160, R161: bytes folded into CRC. -/
def Block.foldCrc (bytes : List Byte) (b : Block) : Block :=
  { b with crc := crc16 bytes b.crc }

/-- R164: the payload window: PCNT is below `payload_len`. -/
def Block.inPayloadWindow (b : Block) : Bool :=
  decide (b.pcnt < b.fields.payload_len.setWidth 32)

/-- R26, R164: PCNT counts one more and saturates at 0xFFFFFFFF. -/
def saturatingIncrement (p : BitVec 32) : BitVec 32 :=
  if p = 0xFFFFFFFF#32 then p else p + 1#32

/-- R164: one payload byte, folded where it lies in the payload window, and counted. -/
def Block.takePayload (x : Byte) (b : Block) : Block :=
  { b with
    crc := if b.inPayloadWindow then crcStep b.crc x else b.crc,
    pcnt := saturatingIncrement b.pcnt }

/-- R203: fewer than 12 header bytes were supplied. -/
def Block.headerShort (b : Block) : Bool := decide (b.hlen < 12#4)

/-- R145, R165, R166: a command on a full header: TRUNCATED_HEADER and nothing else where the header is short, and
otherwise its effect with ERR NONE. -/
def Block.withFullHeader (effect : Block → Block) (b : Block) : Block :=
  if b.headerShort then b.result errTruncatedHeader else (effect b).result errNone

/-- R180: VCHECK's failing paths: no result, and a code. -/
def Block.failCheck (code : BitVec 3) (trailing : Bool) (b : Block) : Block :=
  { b with valid := false, vdone := false, excess := trailing, err := code }

/-- R180: VCHECK under a value of P_REJECT_EXCESS; the order of the checks is the precedence (R208 level 3). -/
def Block.verify (rejectExcess : Bool) (b : Block) : Block :=
  let len : BitVec 32 := b.fields.payload_len.setWidth 32
  if b.headerShort then b.failCheck errTruncatedHeader false
  else if b.pcnt < len then b.failCheck errTruncatedFrame false
  else if len < b.pcnt ∧ rejectExcess = true then b.failCheck errLengthExcess true
  else
    { b with
      excess := decide (len < b.pcnt),
      valid := b.crc == b.fields.checksum,
      vdone := true,
      err := errNone }

/-- R220: the reset event sets every element of the block at once. The host keeps its place and what it has read. Log 4. -/
def State.resetBlock (s : State) : State := { s with block := Block.reset }

/-- The host's next event, and the state in which it takes place, with the event taken from the list. -/
def State.takeEvent (s : State) : Option (HostEvent × State) :=
  match s.pending with
  | [] => none
  | e :: rest => some (e, { s with pending := rest })

end Sys2Proof.Machine
end

