-- ==== Sys2Proof/Machine/CrcEngine.lean ====
section
/-! DEFINITION. The checksum engine's commands and data ports (R162 to R167). -/

namespace Sys2Proof.Machine

/-- R162. -/
def execCrcInit (s : State) : Host.Outcome State Fault Refusal :=
  completeWrite
    (fun b => { b with crc := Config.crcInitValue, pcnt := 0#32, valid := false, vdone := false, excess := false, err := errNone }) s

/-- R163. -/
def execWrCrcData (w : Word) (s : State) : Host.Outcome State Fault Refusal :=
  completeWrite (fun b => (b.flagTruncation 8 w).foldCrc [writeOperand 8 w]) s

/-- R164. -/
def execWrPayData (w : Word) (s : State) : Host.Outcome State Fault Refusal :=
  completeWrite (fun b => (b.flagTruncation 8 w).takePayload (writeOperand 8 w)) s

/-- R165. -/
def execCrcHdr (s : State) : Host.Outcome State Fault Refusal :=
  completeWrite (Block.withFullHeader fun b => b.foldCrc b.hdr.toList) s

/-- R166: bytes 0 to 9, then two bytes 0x00; HDR keeps the received checksum bytes. -/
def execCrcHdrZ (s : State) : Host.Outcome State Fault Refusal :=
  completeWrite (Block.withFullHeader fun b => b.foldCrc (b.hdr.toList.take 10 ++ [0x00#8, 0x00#8])) s

/-- R167. -/
def execCrcSet (s : State) : Host.Outcome State Fault Refusal :=
  completeWrite (fun b => { b with fields := { b.fields with checksum := b.crc }, err := errNone }) s

end Sys2Proof.Machine
end

