-- ==== Sys2Proof/Machine/HeaderCodec.lean ====
section
/-! DEFINITION. The header codec's commands and its data port (R142 to R146). -/

namespace Sys2Proof.Machine

/-- R142. -/
def execPack (s : State) : Host.Outcome State Fault Refusal :=
  completeWrite (fun b => (b.packHeader b.fields.checksum).result errNone) s

/-- R143. -/
def execPackZ (s : State) : Host.Outcome State Fault Refusal :=
  completeWrite (fun b => (b.packHeader 0x0000#16).result errNone) s

/-- R144. -/
def execWrHdrData (w : Word) (s : State) : Host.Outcome State Fault Refusal :=
  completeWrite (fun b => (b.flagTruncation 8 w).appendHeader (writeOperand 8 w)) s

/-- R145. -/
def execUnpack (s : State) : Host.Outcome State Fault Refusal :=
  completeWrite (Block.withFullHeader fun b => { b with fields := unpack12 b.hdr }) s

/-- R146. -/
def execHdrClr (s : State) : Host.Outcome State Fault Refusal :=
  completeWrite (fun b => { b with hdr := Vector.replicate 12 0x00#8, hlen := 0#4, err := errNone }) s

end Sys2Proof.Machine
end

