-- ==== Sys2Proof/Machine/Control.lean ====
section
/-! DEFINITION. VCHECK, NOP and STAT_CLR (R180 to R182), and the command register: a write to CMD issues the command its word
encodes (R71), or records ILLEGAL_COMMAND (R202). -/

namespace Sys2Proof.Machine

/-- R180. -/
def execVcheck (s : State) : Host.Outcome State Fault Refusal :=
  completeWrite (Block.verify Config.rejectExcess) s

/-- R181. -/
def execNop (s : State) : Host.Outcome State Fault Refusal :=
  completeWrite (Block.result errNone) s

/-- R182. -/
def execStatClr (s : State) : Host.Outcome State Fault Refusal :=
  completeWrite Block.clearStatus s

/-- R58, R71: a command runs to completion within its access. -/
def performCommand (c : Command) (s : State) : Host.Outcome State Fault Refusal :=
  match c with
  | .nop => execNop s
  | .pack => execPack s
  | .packZ => execPackZ s
  | .unpack => execUnpack s
  | .crcInit => execCrcInit s
  | .crcHdr => execCrcHdr s
  | .crcHdrZ => execCrcHdrZ s
  | .crcSet => execCrcSet s
  | .vcheck => execVcheck s
  | .hdrClr => execHdrClr s
  | .statClr => execStatClr s

/-- R71, R74, R202: WR CMD. An ILLEGAL word sets ERR and changes nothing else; the access completes normally. Log 14. -/
def execWrCmd (w : Word) (s : State) : Host.Outcome State Fault Refusal :=
  match decodeCommand w with
  | .ok c => performCommand c s
  | .error _ => completeWrite (Block.result errIllegalCommand) s

end Sys2Proof.Machine
end

