-- ==== Sys2Proof/Machine/FieldWrite.lean ====
section
/-! DEFINITION. The nine field-register writes (R101 to R109), each a truncating write (R100). -/

namespace Sys2Proof.Machine

/-- R101. -/
def execWrVersion (w : Word) (s : State) : Host.Outcome State Fault Refusal :=
  completeWrite (truncWrite 4 (fun f v => { f with version := v }) w) s

/-- R102. -/
def execWrAudioType (w : Word) (s : State) : Host.Outcome State Fault Refusal :=
  completeWrite (truncWrite 8 (fun f v => { f with audio_type := v }) w) s

/-- R103. -/
def execWrSampleRate (w : Word) (s : State) : Host.Outcome State Fault Refusal :=
  completeWrite (truncWrite 16 (fun f v => { f with sample_rate := v }) w) s

/-- R104. -/
def execWrChannelCount (w : Word) (s : State) : Host.Outcome State Fault Refusal :=
  completeWrite (truncWrite 2 (fun f v => { f with channel_count := v }) w) s

/-- R105. -/
def execWrFrameFlag (w : Word) (s : State) : Host.Outcome State Fault Refusal :=
  completeWrite (truncWrite 2 (fun f v => { f with frame_flag := v }) w) s

/-- R106. -/
def execWrFrameSeq (w : Word) (s : State) : Host.Outcome State Fault Refusal :=
  completeWrite (truncWrite 16 (fun f v => { f with frame_seq := v }) w) s

/-- R107. -/
def execWrTimestamp (w : Word) (s : State) : Host.Outcome State Fault Refusal :=
  completeWrite (truncWrite 16 (fun f v => { f with timestamp := v }) w) s

/-- R108. -/
def execWrPayloadLen (w : Word) (s : State) : Host.Outcome State Fault Refusal :=
  completeWrite (truncWrite 16 (fun f v => { f with payload_len := v }) w) s

/-- R109. -/
def execWrChecksum (w : Word) (s : State) : Host.Outcome State Fault Refusal :=
  completeWrite (truncWrite 16 (fun f v => { f with checksum := v }) w) s

end Sys2Proof.Machine
end

