-- ==== Sys2Proof/Machine/Read.lean ====
section
/-! DEFINITION. The register reads (R110 to R125). -/

namespace Sys2Proof.Machine

/-- R110. -/
def execRdStatus (s : State) : Host.Outcome State Fault Refusal :=
  completeRead (statusWord s.block) s

/-- R111. -/
def execRdVersion (s : State) : Host.Outcome State Fault Refusal :=
  completeRead (readOperand s.block.fields.version) s

/-- R112. -/
def execRdAudioType (s : State) : Host.Outcome State Fault Refusal :=
  completeRead (readOperand s.block.fields.audio_type) s

/-- R113. -/
def execRdSampleRate (s : State) : Host.Outcome State Fault Refusal :=
  completeRead (readOperand s.block.fields.sample_rate) s

/-- R114. -/
def execRdChannelCount (s : State) : Host.Outcome State Fault Refusal :=
  completeRead (readOperand s.block.fields.channel_count) s

/-- R115. -/
def execRdFrameFlag (s : State) : Host.Outcome State Fault Refusal :=
  completeRead (readOperand s.block.fields.frame_flag) s

/-- R116. -/
def execRdFrameSeq (s : State) : Host.Outcome State Fault Refusal :=
  completeRead (readOperand s.block.fields.frame_seq) s

/-- R117. -/
def execRdTimestamp (s : State) : Host.Outcome State Fault Refusal :=
  completeRead (readOperand s.block.fields.timestamp) s

/-- R118. -/
def execRdPayloadLen (s : State) : Host.Outcome State Fault Refusal :=
  completeRead (readOperand s.block.fields.payload_len) s

/-- R119. -/
def execRdChecksum (s : State) : Host.Outcome State Fault Refusal :=
  completeRead (readOperand s.block.fields.checksum) s

/-- R120. -/
def execRdHdrW0 (s : State) : Host.Outcome State Fault Refusal :=
  completeRead (hdrWord0 s.block.hdr) s

/-- R121. -/
def execRdHdrW1 (s : State) : Host.Outcome State Fault Refusal :=
  completeRead (hdrWord1 s.block.hdr) s

/-- R122. -/
def execRdHdrW2 (s : State) : Host.Outcome State Fault Refusal :=
  completeRead (hdrWord2 s.block.hdr) s

/-- R123. -/
def execRdHlen (s : State) : Host.Outcome State Fault Refusal :=
  completeRead (readOperand s.block.hlen) s

/-- R124. -/
def execRdCrc (s : State) : Host.Outcome State Fault Refusal :=
  completeRead (readOperand s.block.crc) s

/-- R125. -/
def execRdPcnt (s : State) : Host.Outcome State Fault Refusal :=
  completeRead (readOperand s.block.pcnt) s

end Sys2Proof.Machine
end

