-- ==== Sys2Proof/Machine/Dispatch.lean ====
section
/-! DEFINITION. One arm per constructor of Instr, each one call of its meaning. -/

namespace Sys2Proof.Machine

def exec (i : Instr) (s : State) : Host.Outcome State Fault Refusal :=
  match i with
  | .nop => Sys2Proof.Machine.execNop s
  | .pack => Sys2Proof.Machine.execPack s
  | .packZ => Sys2Proof.Machine.execPackZ s
  | .unpack => Sys2Proof.Machine.execUnpack s
  | .crcInit => Sys2Proof.Machine.execCrcInit s
  | .crcHdr => Sys2Proof.Machine.execCrcHdr s
  | .crcHdrZ => Sys2Proof.Machine.execCrcHdrZ s
  | .crcSet => Sys2Proof.Machine.execCrcSet s
  | .vcheck => Sys2Proof.Machine.execVcheck s
  | .hdrClr => Sys2Proof.Machine.execHdrClr s
  | .statClr => Sys2Proof.Machine.execStatClr s
  | .wrCmd w => Sys2Proof.Machine.execWrCmd w s
  | .wrVersion w => Sys2Proof.Machine.execWrVersion w s
  | .wrAudioType w => Sys2Proof.Machine.execWrAudioType w s
  | .wrSampleRate w => Sys2Proof.Machine.execWrSampleRate w s
  | .wrChannelCount w => Sys2Proof.Machine.execWrChannelCount w s
  | .wrFrameFlag w => Sys2Proof.Machine.execWrFrameFlag w s
  | .wrFrameSeq w => Sys2Proof.Machine.execWrFrameSeq w s
  | .wrTimestamp w => Sys2Proof.Machine.execWrTimestamp w s
  | .wrPayloadLen w => Sys2Proof.Machine.execWrPayloadLen w s
  | .wrChecksum w => Sys2Proof.Machine.execWrChecksum w s
  | .wrHdrData w => Sys2Proof.Machine.execWrHdrData w s
  | .wrCrcData w => Sys2Proof.Machine.execWrCrcData w s
  | .wrPayData w => Sys2Proof.Machine.execWrPayData w s
  | .rdStatus => Sys2Proof.Machine.execRdStatus s
  | .rdVersion => Sys2Proof.Machine.execRdVersion s
  | .rdAudioType => Sys2Proof.Machine.execRdAudioType s
  | .rdSampleRate => Sys2Proof.Machine.execRdSampleRate s
  | .rdChannelCount => Sys2Proof.Machine.execRdChannelCount s
  | .rdFrameFlag => Sys2Proof.Machine.execRdFrameFlag s
  | .rdFrameSeq => Sys2Proof.Machine.execRdFrameSeq s
  | .rdTimestamp => Sys2Proof.Machine.execRdTimestamp s
  | .rdPayloadLen => Sys2Proof.Machine.execRdPayloadLen s
  | .rdChecksum => Sys2Proof.Machine.execRdChecksum s
  | .rdHdrW0 => Sys2Proof.Machine.execRdHdrW0 s
  | .rdHdrW1 => Sys2Proof.Machine.execRdHdrW1 s
  | .rdHdrW2 => Sys2Proof.Machine.execRdHdrW2 s
  | .rdHlen => Sys2Proof.Machine.execRdHlen s
  | .rdCrc => Sys2Proof.Machine.execRdCrc s
  | .rdPcnt => Sys2Proof.Machine.execRdPcnt s

end Sys2Proof.Machine
end

