-- ==== Sys2Proof/Machine/Access.lean ====
section
/-! DEFINITION. Performing one bus access (R70) and one event of the host. -/

namespace Sys2Proof.Machine

/-- R70: decode the access and perform its row's rule, or raise the bus error. -/
def performAccess (a : Access) (s : State) : Host.Outcome State Fault Refusal :=
  match decodeAccess a with
  | .ok i => exec i s
  | .error c => raiseBusError c a.offset

/-- An access by bus address reaches the block at its offset from P_BASE (R50; 40_register_access.md); one outside the
block's region is another device's. Log 8. -/
def performBusAccess (base : Nat) (kind : AccessKind) (address size : Nat) (s : State) : Host.Outcome State Fault Refusal :=
  match offsetFrom base address with
  | some offset => performAccess ⟨kind, offset, size⟩ s
  | none => .refused (.outsideWindow address)

/-- One event of the host: an access, or the reset event (R220). -/
def performEvent (e : HostEvent) (s : State) : Host.Outcome State Fault Refusal :=
  match e with
  | .access a => performAccess a s
  | .busAccess kind address size => performBusAccess Config.pBase kind address size s
  | .reset => .next s.resetBlock

end Sys2Proof.Machine
end

