-- ==== Sys2Proof/Machine/Step.lean ====
section
/-! DEFINITION. The step: the host's next event takes place, whole (R58, R61). -/

namespace Sys2Proof.Machine

/-- One step: the first event of `pending` is taken and performed; with none the state stays as it is (log 5). -/
def step (s : State) : Host.Outcome State Fault Refusal :=
  match s.takeEvent with
  | none => .next s
  | some (e, t) => performEvent e t

/-- `s` with the access of an opcode-table row put first among the host's events, where `step` takes its next one. A command
word goes out as a write to CMD (R71). Log 1, log 14. -/
def State.withFetchWord (s : State) (nbits w : Nat) : State :=
  { s with pending := .access (tableEncoded nbits w).toAccess :: s.pending }

end Sys2Proof.Machine
end

