-- ==== Sys2Proof/Machine/Procedures.lean ====
section
/-! DEFINITION. The host's side: the fold of accesses (R61), the pseudo-instructions of R80 as the accesses they expand to,
and the normative procedures ASSEMBLE, VERIFY and CHECKSUM (R184 to R186) with the results the host takes from them. -/

namespace Sys2Proof.Machine

/-- R61: the state after a sequence of accesses is the left fold of the access rules; a bus error ends the host's program. -/
def performAll : List Access → State → Host.Outcome State Fault Refusal
  | [], s => .next s
  | a :: rest, s =>
    match performAccess a s with
    | .next t => performAll rest t
    | .fault f => .fault f
    | .refused r => .refused r

/-- A host program put before the events still to come, each line one access (R35, R79). Log 1. -/
def State.withProgram (s : State) (accesses : List Access) : State :=
  { s with pending := accesses.map HostEvent.access ++ s.pending }

/-- R79: `<CMDMNEMONIC>`, which is `WR CMD, <word>`. -/
def issue (c : Command) : Access := Reg.cmd.wr (commandWord c)

/-- R80: one write of each byte, in order, to a data port, with the data word `zext_32(byte)`. -/
def feed (port : Reg) (bytes : List Byte) : List Access :=
  bytes.map fun x => port.wr (x.setWidth 32)

/-- R80: `FEED_HDR`. -/
def feedHdr (bytes : List Byte) : List Access := feed .hdrData bytes

/-- R80: `FEED_CRC`. -/
def feedCrc (bytes : List Byte) : List Access := feed .crcData bytes

/-- R80: `FEED_PAY`. -/
def feedPay (bytes : List Byte) : List Access := feed .payData bytes

/-- The header values a host holds, each as the word it writes; a value may be wider than its field (R149). -/
structure HostHeader where
  version       : Word
  audio_type    : Word
  sample_rate   : Word
  channel_count : Word
  frame_flag    : Word
  frame_seq     : Word
  timestamp     : Word
  payload_len   : Word
  checksum      : Word
deriving DecidableEq, Repr

/-- R147: the values that lie within the declared widths are those of a field record. -/
def Fields.toHost (f : Fields) : HostHeader :=
  { version := readOperand f.version, audio_type := readOperand f.audio_type, sample_rate := readOperand f.sample_rate,
    channel_count := readOperand f.channel_count, frame_flag := readOperand f.frame_flag,
    frame_seq := readOperand f.frame_seq, timestamp := readOperand f.timestamp,
    payload_len := readOperand f.payload_len, checksum := readOperand f.checksum }

/-- R149: the field record that a host's values become when they are written. -/
def HostHeader.masked (h : HostHeader) : Fields :=
  { version := writeOperand 4 h.version, audio_type := writeOperand 8 h.audio_type,
    sample_rate := writeOperand 16 h.sample_rate, channel_count := writeOperand 2 h.channel_count,
    frame_flag := writeOperand 2 h.frame_flag, frame_seq := writeOperand 16 h.frame_seq,
    timestamp := writeOperand 16 h.timestamp, payload_len := writeOperand 16 h.payload_len,
    checksum := writeOperand 16 h.checksum }

/-- The seven writes with which ASSEMBLE begins (R184). -/
def setDescriptive (h : HostHeader) : List Access :=
  [Reg.version.wr h.version, Reg.audioType.wr h.audio_type, Reg.sampleRate.wr h.sample_rate,
   Reg.channelCount.wr h.channel_count, Reg.frameFlag.wr h.frame_flag, Reg.frameSeq.wr h.frame_seq,
   Reg.timestamp.wr h.timestamp]

/-- R80: `SET_FIELDS h`, in R51 order. -/
def setFields (h : HostHeader) : List Access :=
  setDescriptive h ++ [Reg.payloadLen.wr h.payload_len, Reg.checksum.wr h.checksum]

/-- R80: `GET_FIELDS`, in R51 order. -/
def getFields : List Access :=
  [Reg.version.rd, Reg.audioType.rd, Reg.sampleRate.rd, Reg.channelCount.rd, Reg.frameFlag.rd, Reg.frameSeq.rd,
   Reg.timestamp.rd, Reg.payloadLen.rd, Reg.checksum.rd]

/-- R80: `GET_HDR`. -/
def getHdr : List Access := [Reg.hdrW0.rd, Reg.hdrW1.rd, Reg.hdrW2.rd]

/-- R184: the accesses of ASSEMBLE, whatever the payload's length (M6: each access inside a refused one keeps its effect). -/
def assembleAccesses (h : HostHeader) (p : List Byte) : List Access :=
  setDescriptive h ++ [Reg.payloadLen.wr (BitVec.ofNat 32 p.length), issue .packZ, issue .crcInit, issue .crcHdr] ++
    feedPay p ++ [issue .crcSet, issue .pack] ++ getHdr

/-- R184, D39: `ASSEMBLE h, p`; refused for a payload of more than 65535 bytes. Log 10. -/
def assemble (h : HostHeader) (p : List Byte) : Option (List Access) :=
  if p.length ≤ Config.maxPayload then some (assembleAccesses h p) else none

/-- R184: the frame: the words GET_HDR read, each split most significant byte first (R54), then the payload. -/
def frameOf (words : List Word) (p : List Byte) : List Byte :=
  words.flatMap bytesOfWord ++ p

/-- R185: `VERIFY m`. -/
def verifyAccesses (m : List Byte) : List Access :=
  issue .hdrClr :: feedHdr (m.take 12) ++ [issue .unpack, issue .crcInit, issue .crcHdrZ] ++
    feedPay (m.drop 12) ++ [issue .vcheck, Reg.status.rd] ++ getFields

/-- R185: what the host takes from a VERIFY. A structural failure gives no header (R187). -/
inductive VerifyResult where
  | truncatedHeader
  | truncatedFrame
  | lengthExcess
  | checked (header : Fields) (payload : List Byte) (valid : Bool) (trailing : Bool)
deriving DecidableEq, Repr

/-- R187, R185: the field record from the nine words of GET_FIELDS. -/
def fieldsOfWords : List Word → Option Fields
  | [v, a, r, c, g, q, t, l, k] =>
    some
      { version := v.setWidth 4, audio_type := a.setWidth 8, sample_rate := r.setWidth 16, channel_count := c.setWidth 2,
        frame_flag := g.setWidth 2, frame_seq := q.setWidth 16, timestamp := t.setWidth 16, payload_len := l.setWidth 16,
        checksum := k.setWidth 16 }
  | _ => none

/-- R185: the result of VERIFY from the words it read, STATUS first and then the nine fields. -/
def verifyResult (m : List Byte) : List Word → Option VerifyResult
  | [] => none
  | status :: fieldWords =>
    if status.extractLsb' 0 3 = errTruncatedHeader then some .truncatedHeader
    else if status.extractLsb' 0 3 = errTruncatedFrame then some .truncatedFrame
    else if status.extractLsb' 0 3 = errLengthExcess then some .lengthExcess
    else if status.extractLsb' 0 3 = errNone ∧ status.getLsbD 5 = true then
      (fieldsOfWords fieldWords).map fun header =>
        .checked header ((m.drop 12).take header.payload_len.toNat) (status.getLsbD 4) (status.getLsbD 6)
    else none

/-- R186: `CHECKSUM s`; there is no limit on its length. -/
def checksumAccesses (s : List Byte) : List Access :=
  issue .crcInit :: feedCrc s ++ [Reg.crc.rd]

end Sys2Proof.Machine
end

