-- ==== Sys2Proof/Safety.lean ====
section
/-! DEFINITION. The terms in which claims speak of the machine: the invariant of the block, the classes of instructions, the
nine fields by name, host programs that raise no bus error, and sequences of steps. -/

namespace Sys2Proof.Machine

/-- R24, R20: HLEN is 0 to 12. -/
abbrev Block.hlenInRange (b : Block) : Prop := b.hlen ≤ 12#4

/-- R28, M3: ERR is 0 to 4; the values 5 to 7 are never produced. -/
abbrev Block.errInRange (b : Block) : Prop := b.err ≤ 4#3

/-- R29, R30: VALID is 1 only where VDONE is 1: every rule that clears VDONE clears VALID with it. -/
abbrev Block.validOnlyWhenDone (b : Block) : Prop := b.valid = true → b.vdone = true

/-- R120 to R122, D32: the bytes of HDR at index HLEN and above are 0. -/
abbrev Block.unfilledHeaderZero (b : Block) : Prop := ∀ i : Fin 12, b.hlen.toNat ≤ i.val → b.hdr[i] = 0x00#8

/-- R180, R205: with P_REJECT_EXCESS true no successful check has seen trailing bytes. -/
abbrev Block.noExcessAccepted (b : Block) : Prop :=
  Config.rejectExcess = true → b.vdone = true → b.excess = false

/-- The invariant of the block: every step keeps it, and it holds at reset. -/
abbrev Block.Inv (b : Block) : Prop :=
  b.hlenInRange ∧ b.errInRange ∧ b.validOnlyWhenDone ∧ b.unfilledHeaderZero ∧ b.noExcessAccepted

/-- The invariant of the machine: its block's. -/
abbrev State.Inv (s : State) : Prop := s.block.Inv

/-- R28, R71: the instructions that are commands: the rows of format C and the write to CMD. -/
def isCommand : Instr → Bool
  | .nop | .pack | .packZ | .unpack | .crcInit | .crcHdr | .crcHdrZ | .crcSet | .vcheck | .hdrClr | .statClr | .wrCmd _ => true
  | .wrVersion _ | .wrAudioType _ | .wrSampleRate _ | .wrChannelCount _ | .wrFrameFlag _ | .wrFrameSeq _ | .wrTimestamp _
  | .wrPayloadLen _ | .wrChecksum _ | .wrHdrData _ | .wrCrcData _ | .wrPayData _ => false
  | .rdStatus | .rdVersion | .rdAudioType | .rdSampleRate | .rdChannelCount | .rdFrameFlag | .rdFrameSeq | .rdTimestamp
  | .rdPayloadLen | .rdChecksum | .rdHdrW0 | .rdHdrW1 | .rdHdrW2 | .rdHlen | .rdCrc | .rdPcnt => false

/-- R57: the instructions that are reads. -/
def isRead : Instr → Bool
  | .nop | .pack | .packZ | .unpack | .crcInit | .crcHdr | .crcHdrZ | .crcSet | .vcheck | .hdrClr | .statClr | .wrCmd _ => false
  | .wrVersion _ | .wrAudioType _ | .wrSampleRate _ | .wrChannelCount _ | .wrFrameFlag _ | .wrFrameSeq _ | .wrTimestamp _
  | .wrPayloadLen _ | .wrChecksum _ | .wrHdrData _ | .wrCrcData _ | .wrPayData _ => false
  | .rdStatus | .rdVersion | .rdAudioType | .rdSampleRate | .rdChannelCount | .rdFrameFlag | .rdFrameSeq | .rdTimestamp
  | .rdPayloadLen | .rdChecksum | .rdHdrW0 | .rdHdrW1 | .rdHdrW2 | .rdHlen | .rdCrc | .rdPcnt => true

/-- R58, R71: the command an instruction issues: a row of format C itself, a write to CMD by its word, any other none. -/
def issuedCommand : Instr → Option Command
  | .nop => some .nop
  | .pack => some .pack
  | .packZ => some .packZ
  | .unpack => some .unpack
  | .crcInit => some .crcInit
  | .crcHdr => some .crcHdr
  | .crcHdrZ => some .crcHdrZ
  | .crcSet => some .crcSet
  | .vcheck => some .vcheck
  | .hdrClr => some .hdrClr
  | .statClr => some .statClr
  | .wrCmd w => (decodeCommand w).toOption
  | .wrVersion _ | .wrAudioType _ | .wrSampleRate _ | .wrChannelCount _ | .wrFrameFlag _ | .wrFrameSeq _ | .wrTimestamp _
  | .wrPayloadLen _ | .wrChecksum _ | .wrHdrData _ | .wrCrcData _ | .wrPayData _ => none
  | .rdStatus | .rdVersion | .rdAudioType | .rdSampleRate | .rdChannelCount | .rdFrameFlag | .rdFrameSeq | .rdTimestamp
  | .rdPayloadLen | .rdChecksum | .rdHdrW0 | .rdHdrW1 | .rdHdrW2 | .rdHlen | .rdCrc | .rdPcnt => none

/-- R21: the nine header fields by name. -/
inductive FieldName where
  | version
  | audioType
  | sampleRate
  | channelCount
  | frameFlag
  | frameSeq
  | timestamp
  | payloadLen
  | checksum
deriving DecidableEq, Repr

/-- R21: a field's width in bits. -/
def FieldName.width : FieldName → Nat
  | .version => 4
  | .audioType => 8
  | .sampleRate => 16
  | .channelCount => 2
  | .frameFlag => 2
  | .frameSeq => 16
  | .timestamp => 16
  | .payloadLen => 16
  | .checksum => 16

/-- R51: the offset of a field's register. -/
def FieldName.offset : FieldName → Nat
  | .version => 0x08
  | .audioType => 0x0C
  | .sampleRate => 0x10
  | .channelCount => 0x14
  | .frameFlag => 0x18
  | .frameSeq => 0x1C
  | .timestamp => 0x20
  | .payloadLen => 0x24
  | .checksum => 0x28

/-- A field's value in a record, as a number (R7: all values are unsigned). -/
def Fields.valueOf (f : Fields) : FieldName → Nat
  | .version => f.version.toNat
  | .audioType => f.audio_type.toNat
  | .sampleRate => f.sample_rate.toNat
  | .channelCount => f.channel_count.toNat
  | .frameFlag => f.frame_flag.toNat
  | .frameSeq => f.frame_seq.toNat
  | .timestamp => f.timestamp.toNat
  | .payloadLen => f.payload_len.toNat
  | .checksum => f.checksum.toNat

/-- R101 to R109: the instruction that writes a field. -/
def FieldName.writeInstr : FieldName → Word → Instr
  | .version, w => .wrVersion w
  | .audioType, w => .wrAudioType w
  | .sampleRate, w => .wrSampleRate w
  | .channelCount, w => .wrChannelCount w
  | .frameFlag, w => .wrFrameFlag w
  | .frameSeq, w => .wrFrameSeq w
  | .timestamp, w => .wrTimestamp w
  | .payloadLen, w => .wrPayloadLen w
  | .checksum, w => .wrChecksum w

/-- R111 to R119: the instruction that reads a field. -/
def FieldName.readInstr : FieldName → Instr
  | .version => .rdVersion
  | .audioType => .rdAudioType
  | .sampleRate => .rdSampleRate
  | .channelCount => .rdChannelCount
  | .frameFlag => .rdFrameFlag
  | .frameSeq => .rdFrameSeq
  | .timestamp => .rdTimestamp
  | .payloadLen => .rdPayloadLen
  | .checksum => .rdChecksum

/-- R201: a host program of well-formed accesses, which raises no bus error. -/
def busClean (accesses : List Access) : Bool := accesses.all Access.wellFormed

/-- A word of `n` bits or fewer, which a write to a target of `n` bits keeps whole (R100). -/
def fitsWidth (n : Nat) (w : Word) : Bool := decide (w.toNat < 2 ^ n)

/-- R171: how many bits of a byte are 1; of the difference of two bytes, how many bits differ. -/
def onesIn (b : Byte) : Nat := (List.range 8).countP b.getLsbD

/-- R171: how many bit positions differ between two byte sequences of one length. -/
def differingBits (s t : List Byte) : Nat := (List.zipWith (fun x y => onesIn (x ^^^ y)) s t).sum

/-- R184: the checksum of a frame: over the header packed with a zero checksum, followed by the payload. -/
def frameChecksum (f : Fields) (p : List Byte) : BitVec 16 := checksumOf ((pack12 f 0x0000#16).toList ++ p)

/-- R147, R184: every descriptive value of the host lies within its field's width. -/
def HostHeader.descriptiveInRange (h : HostHeader) : Bool :=
  fitsWidth 4 h.version && fitsWidth 8 h.audio_type && fitsWidth 16 h.sample_rate && fitsWidth 2 h.channel_count &&
    fitsWidth 2 h.frame_flag && fitsWidth 16 h.frame_seq && fitsWidth 16 h.timestamp

end Sys2Proof.Machine
end

