-- ==== Sys2Proof/Certificates/Slice0/Obligations.lean ====
section
/-! DEFINITION. The statements for the provers, in the order of OBLIGATIONS.json. -/

open Sys2Proof Sys2Proof.Machine

/-! ### Encoding and the step -/

/-- 30_encoding.md, R70 to R74: the decoder accepts exactly what the encoder writes, and reads it as the instruction it was
written from: no bit of an encoding is dropped and no other word or access is accepted. -/
def Obligations.DecodeExactlyInvertsEncode : Prop :=
  ∀ (e : Encoded) (i : Instr), decode e = .ok i ↔ encode i = e

/-- R74, R202: `decode_cmd`: ILLEGAL where RSV is not 0, OP is above 0x8, or Z is 1 on another OP than 0x1 and 0x4, and a
write of such a word to CMD sets ERR to 4 and changes nothing else; any other word is the R72 row with its OP and Z. -/
def Obligations.CommandDecodeByFields : Prop :=
  ∀ w : Word,
    if w.toNat / 32 ≠ 0 ∨ 8 < w.toNat % 16 ∨ (w.toNat / 16 % 2 = 1 ∧ w.toNat % 16 ≠ 1 ∧ w.toNat % 16 ≠ 4) then
      (∃ c, decodeCommand w = .error c) ∧
      ∀ s : State, exec (.wrCmd w) s = .next { s with block := { s.block with err := 4#3 } }
    else
      ∃ c, decodeCommand w = .ok c ∧ (commandWord c).toNat % 16 = w.toNat % 16 ∧
        (commandWord c).toNat / 16 % 2 = w.toNat / 16 % 2

/-- R72: the 11 command words, written out from the table, decode to their commands. -/
def Obligations.CommandWordsOfTheMap : Prop :=
  decode (.command 0x00000000#32) = .ok .nop ∧ decode (.command 0x00000001#32) = .ok .pack ∧
  decode (.command 0x00000011#32) = .ok .packZ ∧ decode (.command 0x00000002#32) = .ok .unpack ∧
  decode (.command 0x00000003#32) = .ok .crcInit ∧ decode (.command 0x00000004#32) = .ok .crcHdr ∧
  decode (.command 0x00000014#32) = .ok .crcHdrZ ∧ decode (.command 0x00000005#32) = .ok .crcSet ∧
  decode (.command 0x00000006#32) = .ok .vcheck ∧ decode (.command 0x00000007#32) = .ok .hdrClr ∧
  decode (.command 0x00000008#32) = .ok .statClr

/-- R70, R51: a few accesses, written out from the register map, decode to their instructions. -/
def Obligations.AccessesOfTheRegisterMap : Prop :=
  decode (.access ⟨.write 0x11, 0x00, 32⟩) = .ok (.wrCmd 0x11) ∧
  decode (.access ⟨.write 0x1F, 0x08, 32⟩) = .ok (.wrVersion 0x1F) ∧
  decode (.access ⟨.write 0x77, 0x38, 32⟩) = .ok (.wrHdrData 0x77) ∧
  decode (.access ⟨.write 0x41, 0x48, 32⟩) = .ok (.wrPayData 0x41) ∧
  decode (.access ⟨.read, 0x04, 32⟩) = .ok .rdStatus ∧
  decode (.access ⟨.read, 0x34, 32⟩) = .ok .rdHdrW2 ∧
  decode (.access ⟨.read, 0x4C, 32⟩) = .ok .rdPcnt

/-- A step runs the decoded instruction: where the host's next access decodes to `i`, the step takes the access from the
host's list and is `exec i`. (The list of host events is the model's, log 1.) -/
def Obligations.StepRunsDecodedInstruction : Prop :=
  ∀ (a : Access) (i : Instr) (rest : List HostEvent) (s : State), decode (.access a) = .ok i →
    step { s with pending := .access a :: rest } = exec i { s with pending := rest }

/-- Every instruction of either format is run by the bus access that its encoding goes out as: a command word by the write to
CMD that carries it (R71, R79). -/
def Obligations.StepRunsEncodedInstruction : Prop :=
  ∀ (i : Instr) (rest : List HostEvent) (s : State),
    step { s with pending := .access (encode i).toAccess :: rest } = exec i { s with pending := rest }

/-- R201 with the order of R208 level 1: width, alignment, range, then the access kind; an access that fails none of them
completes. (That a bus error is a fault of the host program is R201's and M1's treatment.) -/
def Obligations.BusChecksInOrder : Prop :=
  ∀ (a : Access) (rest : List HostEvent) (s : State),
    if a.size ≠ 32 then
      step { s with pending := .access a :: rest } = .fault (.busError .width a.offset)
    else if a.offset % 4 ≠ 0 then
      step { s with pending := .access a :: rest } = .fault (.busError .misaligned a.offset)
    else if 0x50 ≤ a.offset then
      step { s with pending := .access a :: rest } = .fault (.busError .unmapped a.offset)
    else if a.kind = .read ∧ a.offset ∈ [0x00, 0x38, 0x44, 0x48] then
      step { s with pending := .access a :: rest } = .fault (.busError .readOfWriteOnly a.offset)
    else if a.kind ≠ .read ∧ a.offset ∈ [0x04, 0x2C, 0x30, 0x34, 0x3C, 0x40, 0x4C] then
      step { s with pending := .access a :: rest } = .fault (.busError .writeOfReadOnly a.offset)
    else
      ∃ t, step { s with pending := .access a :: rest } = .next t

/-- R50: P_BASE is a multiple of 0x80, and an access by bus address reaches the block at its offset from P_BASE. (That any
other address is refused is the model's choice, log 8.) -/
def Obligations.BusAddressReachesRegion : Prop :=
  Config.pBase % 0x80 = 0 ∧
  ∀ (kind : AccessKind) (address size : Nat) (rest : List HostEvent) (s : State),
    if Config.pBase ≤ address ∧ address < Config.pBase + 0x80 then
      step { s with pending := .busAccess kind address size :: rest } =
        step { s with pending := .access ⟨kind, address - Config.pBase, size⟩ :: rest }
    else
      step { s with pending := .busAccess kind address size :: rest } = .refused (.outsideWindow address)

/-- R38: the value of every element after reset, and the STATUS word 0x00000000. -/
def Obligations.ResetValues : Prop :=
  State.reset.block.fields = ⟨0, 0, 0, 0, 0, 0, 0, 0, 0⟩ ∧ (∀ i : Fin 12, State.reset.block.hdr[i] = 0x00#8) ∧
  State.reset.block.hlen = 0#4 ∧ State.reset.block.crc = 0xFFFF#16 ∧ State.reset.block.pcnt = 0#32 ∧
  State.reset.block.err = 0#3 ∧ State.reset.block.valid = false ∧ State.reset.block.vdone = false ∧
  State.reset.block.excess = false ∧ State.reset.block.ftrunc = false ∧ State.reset.block.hovf = false ∧
  exec .rdStatus State.reset = .next { State.reset with readData := State.reset.readData ++ [0x00000000#32] }

/-- R220: the reset event sets every element of the block to its reset value at once, between two accesses. (That it leaves
the host's list and what the host has read alone is the model's choice, log 4.) -/
def Obligations.ResetEventSetsWholeBlock : Prop :=
  ∀ (rest : List HostEvent) (s : State),
    step { s with pending := .reset :: rest } =
      .next { block := State.reset.block, pending := rest, readData := s.readData }

/-- R61: the state after a sequence of accesses is the left fold of the access rules over it: as many steps as accesses, on
the list that begins with them, end as the fold does. -/
def Obligations.StepsFoldTheAccesses : Prop :=
  ∀ (accesses : List Access) (s : State),
    Sys2Proof.core.run accesses.length (s.withProgram accesses) = performAll accesses s

/-- R222 (which the spec marks as derived from R184 to R186): every rule is defined from every state: every instruction
completes in every state, in one step, and of the host's side it changes only what a read hands over. -/
def Obligations.EveryInstructionCompletes : Prop :=
  ∀ (i : Instr) (s : State), ∃ t, exec i s = .next t ∧ t.pending = s.pending ∧
    if isRead i = true then ∃ w, t.readData = s.readData ++ [w] else t.readData = s.readData

/-- R56, R222: a host program that keeps the bus rules runs to its end from every state. -/
def Obligations.BusCleanProgramsComplete : Prop :=
  ∀ (accesses : List Access) (s : State), busClean accesses = true → ∃ t, performAll accesses s = .next t

/-! ### Register access -/

/-- R101 to R109: each of the nine field writes, at its offset, stores the low bits of the data word in its register and sets
FTRUNC where a higher bit is 1; no other field and nothing else changes. -/
def Obligations.FieldWriteStoresLowBits : Prop :=
  ∀ (n : FieldName) (w : Word) (s : State), decode (.access ⟨.write w, n.offset, 32⟩) = .ok (n.writeInstr w) ∧
    ∃ t, exec (n.writeInstr w) s = .next t ∧
    t.block.fields.valueOf n = w.toNat % 2 ^ n.width ∧
    (∀ m, m ≠ n → t.block.fields.valueOf m = s.block.fields.valueOf m) ∧
    t.block.ftrunc = (s.block.ftrunc || decide (2 ^ n.width ≤ w.toNat)) ∧
    t.block = { s.block with fields := t.block.fields, ftrunc := t.block.ftrunc } ∧
    t.pending = s.pending ∧ t.readData = s.readData

/-- R111 to R119: each of the nine field reads, at its offset, returns the register's value, zero-extended, and changes
nothing else. -/
def Obligations.FieldReadReturnsValue : Prop :=
  ∀ (n : FieldName) (s : State), decode (.access ⟨.read, n.offset, 32⟩) = .ok n.readInstr ∧
    ∃ w : Word, exec n.readInstr s = .next { s with readData := s.readData ++ [w] } ∧
    w.toNat = s.block.fields.valueOf n

/-- R22: a field written and read back gives the masked value. -/
def Obligations.FieldReadsBackMasked : Prop :=
  ∀ (n : FieldName) (w : Word) (s : State), ∃ t, exec (n.writeInstr w) s = .next t ∧
    exec n.readInstr t = .next { t with readData := s.readData ++ [BitVec.ofNat 32 (w.toNat % 2 ^ n.width)] }

/-- R57: writes to the nine field registers are idempotent: the second of two equal writes changes nothing at all. -/
def Obligations.FieldWriteIsIdempotent : Prop :=
  ∀ (n : FieldName) (w : Word) (s : State), ∃ t, exec (n.writeInstr w) s = .next t ∧ exec (n.writeInstr w) t = .next t

/-- R110: RD STATUS, at offset 0x04, returns bit 8 HOVF, 7 FTRUNC, 6 EXCESS, 5 VDONE, 4 VALID, 3 zero, 2:0 ERR, and changes
nothing else. -/
def Obligations.StatusReadReturnsLayout : Prop :=
  decode (.access ⟨.read, 0x04, 32⟩) = .ok .rdStatus ∧
  ∀ s : State, ∃ w : Word, exec .rdStatus s = .next { s with readData := s.readData ++ [w] } ∧
    w.toNat = s.block.err.toNat + 16 * s.block.valid.toNat + 32 * s.block.vdone.toNat + 64 * s.block.excess.toNat +
      128 * s.block.ftrunc.toNat + 256 * s.block.hovf.toNat

/-- R120 to R122, R54: the three header words are big-endian, byte 4k in bits 31:24, whatever HLEN is. -/
def Obligations.HeaderWordsAreBigEndian : Prop :=
  ∀ s : State,
    (∃ w : Word, exec .rdHdrW0 s = .next { s with readData := s.readData ++ [w] } ∧
      bytesOfWord w = [s.block.hdr[0], s.block.hdr[1], s.block.hdr[2], s.block.hdr[3]] ∧
      w.toNat / 2 ^ 24 = s.block.hdr[0].toNat) ∧
    (∃ w : Word, exec .rdHdrW1 s = .next { s with readData := s.readData ++ [w] } ∧
      bytesOfWord w = [s.block.hdr[4], s.block.hdr[5], s.block.hdr[6], s.block.hdr[7]] ∧
      w.toNat / 2 ^ 24 = s.block.hdr[4].toNat) ∧
    (∃ w : Word, exec .rdHdrW2 s = .next { s with readData := s.readData ++ [w] } ∧
      bytesOfWord w = [s.block.hdr[8], s.block.hdr[9], s.block.hdr[10], s.block.hdr[11]] ∧
      w.toNat / 2 ^ 24 = s.block.hdr[8].toNat)

/-- R123 to R125: RD HLEN, RD CRC and RD PCNT return their registers, zero-extended, and change nothing else. -/
def Obligations.CounterReadsReturnValue : Prop :=
  ∀ s : State,
    (∃ w : Word, exec .rdHlen s = .next { s with readData := s.readData ++ [w] } ∧ w.toNat = s.block.hlen.toNat) ∧
    (∃ w : Word, exec .rdCrc s = .next { s with readData := s.readData ++ [w] } ∧ w.toNat = s.block.crc.toNat) ∧
    (∃ w : Word, exec .rdPcnt s = .next { s with readData := s.readData ++ [w] } ∧ w.toNat = s.block.pcnt.toNat)

/-- R57: reads have no side effects on the block, and a read done twice returns the same word. -/
def Obligations.ReadsHaveNoSideEffects : Prop :=
  ∀ (i : Instr) (s : State), isRead i = true → ∃ w : Word,
    exec i s = .next { s with readData := s.readData ++ [w] } ∧
    exec i { s with readData := s.readData ++ [w] } = .next { s with readData := s.readData ++ [w, w] }

/-- R36: the block has no hidden state: two states in which every read returns the same word have the same block. -/
def Obligations.ReadsRevealWholeBlock : Prop :=
  ∀ s t : State,
    (∀ i, isRead i = true → ∃ w : Word, exec i s = .next { s with readData := s.readData ++ [w] } ∧
      exec i t = .next { t with readData := t.readData ++ [w] }) →
    s.block = t.block

/-! ### Header codec -/

/-- R75: the packed header as a 96-bit value is the nine fields one after the other, version in the highest bits. -/
def Obligations.PackedHeaderLayout : Prop :=
  ∀ (f : Fields) (cs : BitVec 16),
    headerValue (pack12 f cs) =
      f.version ++ f.audio_type ++ f.sample_rate ++ f.channel_count ++ f.frame_flag ++ f.frame_seq ++ f.timestamp ++
        f.payload_len ++ cs

/-- R147 (which the spec marks as derived from R140 and R141): unpacking a packed header gives the record back, with the
checksum it was packed with; in the block, PACK then UNPACK leaves every field register unchanged. -/
def Obligations.UnpackOfPackRoundTrips : Prop :=
  (∀ (f : Fields) (cs : BitVec 16), unpack12 (pack12 f cs) = { f with checksum := cs }) ∧
  ∀ s : State, ∃ t u, exec .pack s = .next t ∧ exec .unpack t = .next u ∧ u.block.fields = s.block.fields

/-- R148 (which the spec marks as derived from R141 and R75): packing what any 12 bytes unpack to gives those bytes back, and
with a zero checksum it gives them with bytes 10 and 11 replaced by zero, which is the image CRC_HDR.Z folds. -/
def Obligations.PackOfUnpackRoundTrips : Prop :=
  ∀ b : Vector Byte 12,
    pack12 (unpack12 b) (unpack12 b).checksum = b ∧
    (pack12 (unpack12 b) 0x0000#16).toList = b.toList.take 10 ++ [0x00#8, 0x00#8] ∧
    ∀ s : State, s.block.hdr = b → 12 ≤ s.block.hlen.toNat →
      exec .crcHdrZ s = .next { s with block := { s.block with
        crc := crc16 (pack12 (unpack12 b) 0x0000#16).toList s.block.crc, err := 0#3 } }

/-- R142, R143: PACK (word 0x1) writes the 96 bits of the nine registers to HDR, PACK.Z (word 0x11) the same with a zero
checksum; HLEN becomes 12 and ERR 0, and nothing else changes. -/
def Obligations.PackFillsHeader : Prop :=
  ∀ s : State,
    exec (.wrCmd 0x00000001#32) s = exec .pack s ∧ exec (.wrCmd 0x00000011#32) s = exec .packZ s ∧
    (∃ t, exec .pack s = .next t ∧
      headerValue t.block.hdr =
        s.block.fields.version ++ s.block.fields.audio_type ++ s.block.fields.sample_rate ++ s.block.fields.channel_count ++
          s.block.fields.frame_flag ++ s.block.fields.frame_seq ++ s.block.fields.timestamp ++ s.block.fields.payload_len ++
          s.block.fields.checksum ∧
      t = { s with block := { s.block with hdr := t.block.hdr, hlen := 12#4, err := 0#3 } }) ∧
    (∃ t, exec .packZ s = .next t ∧
      headerValue t.block.hdr =
        s.block.fields.version ++ s.block.fields.audio_type ++ s.block.fields.sample_rate ++ s.block.fields.channel_count ++
          s.block.fields.frame_flag ++ s.block.fields.frame_seq ++ s.block.fields.timestamp ++ s.block.fields.payload_len ++
          0x0000#16 ∧
      t = { s with block := { s.block with hdr := t.block.hdr, hlen := 12#4, err := 0#3 } })

/-- R145: UNPACK (word 0x2) on a full header sets the nine registers to the fields whose bits HDR holds, and ERR to 0; on
fewer than 12 bytes it sets ERR to 1; nothing else changes. -/
def Obligations.UnpackDecodesFullHeader : Prop :=
  ∀ s : State,
    exec (.wrCmd 0x00000002#32) s = exec .unpack s ∧
    if s.block.hlen.toNat < 12 then
      exec .unpack s = .next { s with block := { s.block with err := 1#3 } }
    else
      ∃ f : Fields, exec .unpack s = .next { s with block := { s.block with fields := f, err := 0#3 } } ∧
        f.version ++ f.audio_type ++ f.sample_rate ++ f.channel_count ++ f.frame_flag ++ f.frame_seq ++ f.timestamp ++
          f.payload_len ++ f.checksum = headerValue s.block.hdr

/-- R144: WR HDR_DATA, at offset 0x38, stores the low byte at index HLEN and counts it, or drops it and sets HOVF where HLEN
is 12 (or above, in a state no run reaches, by the rule's own else branch); FTRUNC records a lost bit; nothing else changes.
-/
def Obligations.HdrDataAppendsOrDrops : Prop :=
  ∀ (w : Word) (s : State), decode (.access ⟨.write w, 0x38, 32⟩) = .ok (.wrHdrData w) ∧
    ∃ t, exec (.wrHdrData w) s = .next t ∧
    t.block.ftrunc = (s.block.ftrunc || decide (2 ^ 8 ≤ w.toNat)) ∧
    (if s.block.hlen.toNat < 12 then
      t.block.hlen.toNat = s.block.hlen.toNat + 1 ∧ t.block.hovf = s.block.hovf ∧
      ∀ i : Fin 12, t.block.hdr[i] = if i.val = s.block.hlen.toNat then w.setWidth 8 else s.block.hdr[i]
    else
      t.block.hlen = s.block.hlen ∧ t.block.hovf = true ∧ t.block.hdr = s.block.hdr) ∧
    t = { s with block := { s.block with
      hdr := t.block.hdr, hlen := t.block.hlen, ftrunc := t.block.ftrunc, hovf := t.block.hovf } }

/-- R146: HDR_CLR (word 0x7) zeroes HDR, HLEN and ERR, and changes nothing else. -/
def Obligations.HdrClrEmptiesBuffer : Prop :=
  ∀ s : State, exec (.wrCmd 0x00000007#32) s = exec .hdrClr s ∧ ∃ t, exec .hdrClr s = .next t ∧
    (∀ i : Fin 12, t.block.hdr[i] = 0x00#8) ∧
    t = { s with block := { s.block with hdr := t.block.hdr, hlen := 0#4, err := 0#3 } }

/-- R144, R146, R228: after HDR_CLR, FEED_HDR of any bytes leaves the first 12 in HDR, the rest of HDR zero, their count in
HLEN, and HOVF set where more than 12 were fed; FTRUNC is unchanged. -/
def Obligations.FeedHeaderKeepsFirstTwelve : Prop :=
  ∀ (bytes : List Byte) (s : State), ∃ t, performAll (issue .hdrClr :: feedHdr bytes) s = .next t ∧
    t.block.hdr.toList = bytes.take 12 ++ List.replicate (12 - bytes.length) 0x00#8 ∧
    t.block.hlen.toNat = min bytes.length 12 ∧
    t.block.hovf = (s.block.hovf || decide (12 < bytes.length)) ∧
    t = { s with block := { s.block with hdr := t.block.hdr, hlen := t.block.hlen, hovf := t.block.hovf, err := 0#3 } }

/-! ### Checksum engine -/

/-- R160: `crc_step` is the byte exclusive-ored into the high byte, then eight times a shift with the polynomial 0x1021 where
the top bit was 1. -/
def Obligations.CrcStepFollowsAlgorithm : Prop :=
  ∀ (c : BitVec 16) (b : Byte),
    crcStep c b =
      (fun r : BitVec 16 => if r.getLsbD 15 = true then (r <<< 1) ^^^ 0x1021#16 else r <<< 1)^[8]
        (c ^^^ (b.setWidth 16 <<< 8))

/-- R169 (which the spec marks as derived from R160 and R161): the check values of the engine. -/
def Obligations.CrcCheckValues : Prop :=
  crc16 [] 0xFFFF = 0xFFFF ∧ crc16 [0x00] 0xFFFF = 0xE1F0 ∧ crc16 [0xFF] 0xFFFF = 0xFF00 ∧ crc16 [0x41] 0xFFFF = 0xB915 ∧
  crc16 [0x31, 0x32, 0x33, 0x34, 0x35, 0x36, 0x37, 0x38, 0x39] 0xFFFF = 0x29B1

/-- R162: CRC_INIT (word 0x3) sets CRC to 0xFFFF and PCNT, VALID, VDONE, EXCESS and ERR to 0, changes nothing else, and issued
twice is the same as issued once. -/
def Obligations.CrcInitStartsChecksum : Prop :=
  ∀ s : State, exec (.wrCmd 0x00000003#32) s = exec .crcInit s ∧ ∃ t, exec .crcInit s = .next t ∧ exec .crcInit t = .next t ∧
    t = { s with block := { s.block with
      crc := 0xFFFF#16, pcnt := 0#32, valid := false, vdone := false, excess := false, err := 0#3 } }

/-- R163: WR CRC_DATA, at offset 0x44, folds the low byte into CRC, records a lost bit in FTRUNC, and changes nothing else. -/
def Obligations.CrcDataFoldsOneByte : Prop :=
  ∀ (w : Word) (s : State), decode (.access ⟨.write w, 0x44, 32⟩) = .ok (.wrCrcData w) ∧
    exec (.wrCrcData w) s = .next { s with block := { s.block with
      crc := crc16 [w.setWidth 8] s.block.crc, ftrunc := s.block.ftrunc || decide (2 ^ 8 ≤ w.toNat) } }

/-- R164: WR PAY_DATA, at offset 0x48, folds the low byte where PCNT is below payload_len, counts it without wrapping, records
a lost bit in FTRUNC, and changes nothing else. -/
def Obligations.PayDataFoldsInsideWindow : Prop :=
  ∀ (w : Word) (s : State), decode (.access ⟨.write w, 0x48, 32⟩) = .ok (.wrPayData w) ∧
    ∃ t, exec (.wrPayData w) s = .next t ∧
    t.block.crc =
      (if s.block.pcnt.toNat < s.block.fields.payload_len.toNat then crcStep s.block.crc (w.setWidth 8) else s.block.crc) ∧
    t.block.pcnt.toNat = min (s.block.pcnt.toNat + 1) 0xFFFFFFFF ∧
    t = { s with block := { s.block with
      crc := t.block.crc, pcnt := t.block.pcnt, ftrunc := s.block.ftrunc || decide (2 ^ 8 ≤ w.toNat) } }

/-- R164, R26: after CRC_INIT, FEED_PAY of any bytes folds exactly the first payload_len of them and counts them all, up to
the count's greatest value. -/
def Obligations.FeedPayloadFoldsWindow : Prop :=
  ∀ (bytes : List Byte) (s : State), ∃ t, performAll (issue .crcInit :: feedPay bytes) s = .next t ∧
    t.block.crc = crc16 (bytes.take s.block.fields.payload_len.toNat) 0xFFFF#16 ∧
    t.block.pcnt.toNat = min bytes.length 0xFFFFFFFF ∧
    t = { s with block := { s.block with
      crc := t.block.crc, pcnt := t.block.pcnt, valid := false, vdone := false, excess := false, err := 0#3 } }

/-- R165: CRC_HDR (word 0x4) folds the 12 bytes of a full header into CRC and sets ERR to 0; on fewer it sets ERR to 1;
nothing else changes. -/
def Obligations.CrcHdrFoldsFullHeader : Prop :=
  ∀ s : State,
    exec (.wrCmd 0x00000004#32) s = exec .crcHdr s ∧
    if s.block.hlen.toNat < 12 then
      exec .crcHdr s = .next { s with block := { s.block with err := 1#3 } }
    else
      exec .crcHdr s = .next { s with block := { s.block with crc := crc16 s.block.hdr.toList s.block.crc, err := 0#3 } }

/-- R166: CRC_HDR.Z (word 0x14) folds the zero-checksum image of a full header, which is what its fields pack to with a zero
checksum, leaves HDR as it is and sets ERR to 0; on fewer than 12 bytes it sets ERR to 1; nothing else changes. -/
def Obligations.CrcHdrZFoldsZeroImage : Prop :=
  ∀ s : State,
    exec (.wrCmd 0x00000014#32) s = exec .crcHdrZ s ∧
    if s.block.hlen.toNat < 12 then
      exec .crcHdrZ s = .next { s with block := { s.block with err := 1#3 } }
    else
      exec .crcHdrZ s = .next { s with block := { s.block with
        crc := crc16 (pack12 (unpack12 s.block.hdr) 0x0000#16).toList s.block.crc, err := 0#3 } } ∧
      (pack12 (unpack12 s.block.hdr) 0x0000#16).toList = s.block.hdr.toList.take 10 ++ [0x00#8, 0x00#8]

/-- R167: CRC_SET (word 0x5) copies CRC to the checksum register, sets ERR to 0, and changes nothing else. -/
def Obligations.CrcSetCopiesChecksum : Prop :=
  ∀ s : State, exec (.wrCmd 0x00000005#32) s = exec .crcSet s ∧ ∃ t, exec .crcSet s = .next t ∧ t.block.fields.valueOf .checksum = s.block.crc.toNat ∧
    (∀ n, n ≠ .checksum → t.block.fields.valueOf n = s.block.fields.valueOf n) ∧
    t = { s with block := { s.block with fields := t.block.fields, err := 0#3 } }

/-- R170 (which the spec marks as derived from R160): for two sequences of one length, the exclusive or of their checksums
depends only on their difference. -/
def Obligations.CrcIsAffine : Prop :=
  ∀ (s t : List Byte) (c : BitVec 16), s.length = t.length →
    crc16 s c ^^^ crc16 t c = crc16 (List.zipWith (· ^^^ ·) s t) 0x0000#16

/-- R171 (its first and third points, for changes within two neighbouring bytes; the spec marks it as derived from R170): a
change confined to two neighbouring bytes of the checksum input is always detected. -/
def Obligations.NeighbouringByteChangeDetected : Prop :=
  ∀ (before after : List Byte) (x y x' y' : Byte) (c : BitVec 16), (x, y) ≠ (x', y') →
    crc16 (before ++ [x, y] ++ after) c ≠ crc16 (before ++ [x', y'] ++ after) c

/-- R171 (its second point; the spec marks it as derived from R170): every change of an odd number of bits is detected. -/
def Obligations.OddBitChangeDetected : Prop :=
  ∀ (s t : List Byte) (c : BitVec 16), s.length = t.length → differingBits s t % 2 = 1 → crc16 s c ≠ crc16 t c

/-! ### Control -/

/-- R180: VCHECK (word 0x6), on every path and for either value of P_REJECT_EXCESS: the flags and ERR it writes; nothing else
changes, and it may be repeated with the same result. -/
def Obligations.VcheckReportsFrame : Prop :=
  ∀ s : State, exec (.wrCmd 0x00000006#32) s = exec .vcheck s ∧ ∃ t, exec .vcheck s = .next t ∧ exec .vcheck t = .next t ∧
    (if s.block.hlen.toNat < 12 then
      t.block.err = 1#3 ∧ t.block.valid = false ∧ t.block.vdone = false ∧ t.block.excess = false
    else if s.block.pcnt.toNat < s.block.fields.payload_len.toNat then
      t.block.err = 2#3 ∧ t.block.valid = false ∧ t.block.vdone = false ∧ t.block.excess = false
    else if s.block.fields.payload_len.toNat < s.block.pcnt.toNat ∧ Config.rejectExcess = true then
      t.block.err = 3#3 ∧ t.block.valid = false ∧ t.block.vdone = false ∧ t.block.excess = true
    else
      t.block.err = 0#3 ∧ t.block.vdone = true ∧
      (t.block.valid = true ↔ s.block.crc = s.block.fields.checksum) ∧
      (t.block.excess = true ↔ s.block.fields.payload_len.toNat < s.block.pcnt.toNat)) ∧
    t = { s with block := { s.block with
      err := t.block.err, valid := t.block.valid, vdone := t.block.vdone, excess := t.block.excess } }

/-- R181, R182: NOP (word 0x0) clears ERR alone, and the words 0x10 and 0x9 are ILLEGAL_COMMAND, not NOP; STAT_CLR (word 0x8)
clears every field of STATUS, which then reads 0; neither changes anything else. -/
def Obligations.NopAndStatClrClear : Prop :=
  ∀ s : State,
    exec (.wrCmd 0x00000000#32) s = exec .nop s ∧
    exec (.wrCmd 0x00000010#32) s = .next { s with block := { s.block with err := 4#3 } } ∧
    exec (.wrCmd 0x00000009#32) s = .next { s with block := { s.block with err := 4#3 } } ∧
    exec (.wrCmd 0x00000008#32) s = exec .statClr s ∧
    exec .nop s = .next { s with block := { s.block with err := 0#3 } } ∧
    ∃ t, exec .statClr s = .next t ∧
      exec .rdStatus t = .next { t with readData := s.readData ++ [0x00000000#32] } ∧
      t = { s with block := { s.block with
        err := 0#3, valid := false, vdone := false, excess := false, ftrunc := false, hovf := false } }

/-- R71, R202: a write to CMD performs the command whose word it carries; any other word sets ERR to 4 and changes nothing
else. -/
def Obligations.CmdWriteIssuesOrRecordsIllegal : Prop :=
  ∀ (w : Word) (s : State),
    (∃ c, w = commandWord c ∧ exec (.wrCmd w) s = exec c.instr s) ∨
    ((∀ c, w ≠ commandWord c) ∧ exec (.wrCmd w) s = .next { s with block := { s.block with err := 4#3 } })

/-! ### Whole-machine rules -/

/-- R28: ERR is written by every command, with a value from 0 to 4, and by nothing else. -/
def Obligations.ErrWrittenByCommandsOnly : Prop :=
  ∀ (i : Instr) (s : State), ∃ t, exec i s = .next t ∧
    if isCommand i = true then
      t.block.err.toNat ≤ 4 ∧ ∀ e, exec i { s with block := { s.block with err := e } } = .next t
    else t.block.err = s.block.err

/-- R32, R33: FTRUNC and HOVF are sticky: no instruction but STAT_CLR clears either. -/
def Obligations.StickyFlagsClearedByStatClrOnly : Prop :=
  ∀ (i : Instr) (s : State), ∃ t, exec i s = .next t ∧
    if issuedCommand i = some .statClr then t.block.ftrunc = false ∧ t.block.hovf = false
    else
      (s.block.ftrunc = true → t.block.ftrunc = true) ∧ (s.block.hovf = true → t.block.hovf = true)

/-- R32, R33: FTRUNC is set only by a write of a field register or data port whose word has a 1 above the target's width, and
HOVF only by a HDR_DATA write on a full buffer. -/
def Obligations.StickyFlagsSetOnlyByTheirCauses : Prop :=
  ∀ (i : Instr) (s : State), ∃ t, exec i s = .next t ∧
    (s.block.ftrunc = false → t.block.ftrunc = true →
      (∃ n w, i = FieldName.writeInstr n w ∧ 2 ^ n.width ≤ w.toNat) ∨
      ∃ w : Word, (i = .wrHdrData w ∨ i = .wrCrcData w ∨ i = .wrPayData w) ∧ 2 ^ 8 ≤ w.toNat) ∧
    (s.block.hovf = false → t.block.hovf = true → (∃ w, i = .wrHdrData w) ∧ 12 ≤ s.block.hlen.toNat)

/-- R21, R23, R24: the field registers change only by a field write, UNPACK or CRC_SET; HDR and HLEN only by PACK, PACK.Z,
HDR_CLR or a HDR_DATA write. -/
def Obligations.HeaderStateWriters : Prop :=
  ∀ (i : Instr) (s : State), ∃ t, exec i s = .next t ∧
    (t.block.fields = s.block.fields ∨ (∃ n w, i = FieldName.writeInstr n w) ∨
      issuedCommand i = some .unpack ∨ issuedCommand i = some .crcSet) ∧
    ((t.block.hdr = s.block.hdr ∧ t.block.hlen = s.block.hlen) ∨ (∃ w, i = .wrHdrData w) ∨
      issuedCommand i = some .pack ∨ issuedCommand i = some .packZ ∨ issuedCommand i = some .hdrClr)

/-- R25, R26, R29 to R31: CRC changes only by CRC_INIT, CRC_HDR, CRC_HDR.Z or a CRC_DATA or PAY_DATA write; PCNT only by
CRC_INIT or a PAY_DATA write; VALID, VDONE and EXCESS only by VCHECK, CRC_INIT or STAT_CLR. -/
def Obligations.ChecksumStateWriters : Prop :=
  ∀ (i : Instr) (s : State), ∃ t, exec i s = .next t ∧
    (t.block.crc = s.block.crc ∨ (∃ w, i = .wrCrcData w) ∨ (∃ w, i = .wrPayData w) ∨
      issuedCommand i = some .crcInit ∨ issuedCommand i = some .crcHdr ∨ issuedCommand i = some .crcHdrZ) ∧
    (t.block.pcnt = s.block.pcnt ∨ (∃ w, i = .wrPayData w) ∨ issuedCommand i = some .crcInit) ∧
    ((t.block.valid = s.block.valid ∧ t.block.vdone = s.block.vdone ∧ t.block.excess = s.block.excess) ∨
      issuedCommand i = some .vcheck ∨ issuedCommand i = some .crcInit ∨ issuedCommand i = some .statClr)

/-- The block's invariant holds at reset (R38). -/
def Obligations.ResetMeetsBlockInvariant : Prop :=
  State.reset.Inv

/-- Every step keeps the block's invariant: HLEN is 0 to 12 (R24), ERR is 0 to 4 (R28, M3), VALID is 1 only where VDONE is 1
(R29, R30), the bytes of HDR from index HLEN on are 0 (R120, D32), and with P_REJECT_EXCESS true no accepted check has seen
trailing bytes (R180, R205). -/
def Obligations.StepKeepsBlockInvariant : Prop :=
  ∀ s t : State, s.Inv → step s = .next t → t.Inv

/-! ### Procedures -/

/-- R186: CHECKSUM of any byte sequence, from any state, reads back `crc16(s, 0xFFFF)`; all it leaves changed is the engine's
state. -/
def Obligations.ChecksumProcedureResult : Prop :=
  ∀ (bytes : List Byte) (s : State),
    performAll (checksumAccesses bytes) s = .next
      { s with
        block := { s.block with
          crc := crc16 bytes 0xFFFF#16, pcnt := 0#32, valid := false, vdone := false, excess := false, err := 0#3 },
        readData := s.readData ++ [(crc16 bytes 0xFFFF#16).setWidth 32] }

/-- R184: ASSEMBLE of at most 65535 payload bytes, from any state: the frame is the packed header with its checksum, followed
by the payload; the checksum is that of the zero-checksum header and the payload; ERR is 0, PCNT is the payload's length, and
FTRUNC is set where a value was out of range. More bytes are refused (R184, D39; that the refusal is the lack of an access
list is the model's choice, log 10). -/
def Obligations.AssembleBuildsFrame : Prop :=
  ∀ (h : HostHeader) (p : List Byte) (s : State),
    if p.length ≤ 65535 then
      ∃ (f : Fields) (t : State) (words : List Word),
        f = { h.masked with payload_len := BitVec.ofNat 16 p.length, checksum := f.checksum } ∧
        f.checksum = crc16 ((pack12 f 0x0000#16).toList ++ p) 0xFFFF#16 ∧
        assemble h p = some (assembleAccesses h p) ∧ performAll (assembleAccesses h p) s = .next t ∧
        t.readData = s.readData ++ words ∧ frameOf words p = (pack12 f f.checksum).toList ++ p ∧
        t.block.fields = f ∧ t.block.err = 0#3 ∧ t.block.pcnt.toNat = p.length ∧
        t.block.ftrunc = (s.block.ftrunc || !h.descriptiveInRange) ∧ t.block.hovf = s.block.hovf
    else assemble h p = none

/-- R185: VERIFY of a message of fewer than 12 bytes, from any state, ends with TRUNCATED_HEADER. -/
def Obligations.VerifyRejectsShortMessage : Prop :=
  ∀ (m : List Byte) (s : State), m.length < 12 →
    ∃ (t : State) (words : List Word), performAll (verifyAccesses m) s = .next t ∧ t.readData = s.readData ++ words ∧
      verifyResult m words = some .truncatedHeader ∧
      t.block.err = 1#3 ∧ t.block.valid = false ∧ t.block.vdone = false ∧ t.block.fields = s.block.fields

/-- R185, R180: VERIFY of 12 header bytes and any bytes after them, from any state and for either value of P_REJECT_EXCESS:
TRUNCATED_FRAME, LENGTH_EXCESS, or the header, the payload, whether the recomputed checksum equals the transmitted one, and
whether bytes trail. -/
def Obligations.VerifyReportsFullMessage : Prop :=
  ∀ (hdr : Vector Byte 12) (rest : List Byte) (s : State), ∃ (t : State) (words : List Word),
    performAll (verifyAccesses (hdr.toList ++ rest)) s = .next t ∧ t.readData = s.readData ++ words ∧
    t.block.fields = unpack12 hdr ∧
    verifyResult (hdr.toList ++ rest) words = some
      (if rest.length < (unpack12 hdr).payload_len.toNat then .truncatedFrame
      else if (unpack12 hdr).payload_len.toNat < rest.length ∧ Config.rejectExcess = true then .lengthExcess
      else
        .checked (unpack12 hdr) (rest.take (unpack12 hdr).payload_len.toNat)
          (frameChecksum (unpack12 hdr) (rest.take (unpack12 hdr).payload_len.toNat) == (unpack12 hdr).checksum)
          (decide ((unpack12 hdr).payload_len.toNat < rest.length)))

/-- R188 (which the spec marks as derived from R184, R185, R180 and R148): VERIFY of what ASSEMBLE built, each from any state,
ends with ERR 0, VDONE 1, VALID 1 and EXCESS 0, and the field registers hold the header ASSEMBLE built, with `payload_len` the
payload's length. -/
def Obligations.AssembledFrameVerifies : Prop :=
  ∀ (h : HostHeader) (p : List Byte) (s r : State), p.length ≤ 65535 →
    ∃ (t u : State) (words : List Word),
      performAll (assembleAccesses h p) s = .next t ∧ t.readData = s.readData ++ words ∧
      performAll (verifyAccesses (frameOf words p)) r = .next u ∧
      u.block.err = 0#3 ∧ u.block.vdone = true ∧ u.block.valid = true ∧ u.block.excess = false ∧
      u.block.fields = t.block.fields ∧
      t.block.fields = { h.masked with
        payload_len := BitVec.ofNat 16 p.length,
        checksum := frameChecksum { h.masked with payload_len := BitVec.ofNat 16 p.length } p }

/-- R189 (its first two points, for any change of one byte; the spec marks it as derived from R185 and R171): change one byte
of an assembled frame, other than the two of payload_len, to another value; VERIFY ends with ERR 0, VDONE 1 and VALID 0. -/
def Obligations.TamperedByteIsNotValid : Prop :=
  ∀ (f : Fields) (p : List Byte) (j : Nat) (x : Byte) (s : State),
    p.length = f.payload_len.toNat → j < 12 + p.length → j ≠ 8 → j ≠ 9 →
    ((pack12 f (frameChecksum f p)).toList ++ p)[j]? ≠ some x →
    ∃ t : State, performAll (verifyAccesses (((pack12 f (frameChecksum f p)).toList ++ p).set j x)) s = .next t ∧
      t.block.err = 0#3 ∧ t.block.vdone = true ∧ t.block.valid = false
end

