-- ==== Sys2Proof/Laws/State.lean ====
section
/-! SUPPORT. One lemma per field for each update of the block and of the state, true by rfl, so that no later proof unfolds a
record update. -/

namespace Sys2Proof.Machine

@[simp] theorem Block.flagTruncation_fields (n : Nat) (w : Word) (b : Block) : (b.flagTruncation n w).fields = b.fields := rfl
@[simp] theorem Block.flagTruncation_hdr (n : Nat) (w : Word) (b : Block) : (b.flagTruncation n w).hdr = b.hdr := rfl
@[simp] theorem Block.flagTruncation_hlen (n : Nat) (w : Word) (b : Block) : (b.flagTruncation n w).hlen = b.hlen := rfl
@[simp] theorem Block.flagTruncation_crc (n : Nat) (w : Word) (b : Block) : (b.flagTruncation n w).crc = b.crc := rfl
@[simp] theorem Block.flagTruncation_pcnt (n : Nat) (w : Word) (b : Block) : (b.flagTruncation n w).pcnt = b.pcnt := rfl
@[simp] theorem Block.flagTruncation_err (n : Nat) (w : Word) (b : Block) : (b.flagTruncation n w).err = b.err := rfl
@[simp] theorem Block.flagTruncation_valid (n : Nat) (w : Word) (b : Block) : (b.flagTruncation n w).valid = b.valid := rfl
@[simp] theorem Block.flagTruncation_vdone (n : Nat) (w : Word) (b : Block) : (b.flagTruncation n w).vdone = b.vdone := rfl
@[simp] theorem Block.flagTruncation_excess (n : Nat) (w : Word) (b : Block) : (b.flagTruncation n w).excess = b.excess := rfl
@[simp] theorem Block.flagTruncation_ftrunc (n : Nat) (w : Word) (b : Block) : (b.flagTruncation n w).ftrunc = (b.ftrunc || lostBits n w) := rfl
@[simp] theorem Block.flagTruncation_hovf (n : Nat) (w : Word) (b : Block) : (b.flagTruncation n w).hovf = b.hovf := rfl

@[simp] theorem Block.result_fields (code : BitVec 3) (b : Block) : (b.result code).fields = b.fields := rfl
@[simp] theorem Block.result_hdr (code : BitVec 3) (b : Block) : (b.result code).hdr = b.hdr := rfl
@[simp] theorem Block.result_hlen (code : BitVec 3) (b : Block) : (b.result code).hlen = b.hlen := rfl
@[simp] theorem Block.result_crc (code : BitVec 3) (b : Block) : (b.result code).crc = b.crc := rfl
@[simp] theorem Block.result_pcnt (code : BitVec 3) (b : Block) : (b.result code).pcnt = b.pcnt := rfl
@[simp] theorem Block.result_err (code : BitVec 3) (b : Block) : (b.result code).err = code := rfl
@[simp] theorem Block.result_valid (code : BitVec 3) (b : Block) : (b.result code).valid = b.valid := rfl
@[simp] theorem Block.result_vdone (code : BitVec 3) (b : Block) : (b.result code).vdone = b.vdone := rfl
@[simp] theorem Block.result_excess (code : BitVec 3) (b : Block) : (b.result code).excess = b.excess := rfl
@[simp] theorem Block.result_ftrunc (code : BitVec 3) (b : Block) : (b.result code).ftrunc = b.ftrunc := rfl
@[simp] theorem Block.result_hovf (code : BitVec 3) (b : Block) : (b.result code).hovf = b.hovf := rfl

@[simp] theorem Block.clearStatus_fields (b : Block) : b.clearStatus.fields = b.fields := rfl
@[simp] theorem Block.clearStatus_hdr (b : Block) : b.clearStatus.hdr = b.hdr := rfl
@[simp] theorem Block.clearStatus_hlen (b : Block) : b.clearStatus.hlen = b.hlen := rfl
@[simp] theorem Block.clearStatus_crc (b : Block) : b.clearStatus.crc = b.crc := rfl
@[simp] theorem Block.clearStatus_pcnt (b : Block) : b.clearStatus.pcnt = b.pcnt := rfl
@[simp] theorem Block.clearStatus_err (b : Block) : b.clearStatus.err = errNone := rfl
@[simp] theorem Block.clearStatus_valid (b : Block) : b.clearStatus.valid = false := rfl
@[simp] theorem Block.clearStatus_vdone (b : Block) : b.clearStatus.vdone = false := rfl
@[simp] theorem Block.clearStatus_excess (b : Block) : b.clearStatus.excess = false := rfl
@[simp] theorem Block.clearStatus_ftrunc (b : Block) : b.clearStatus.ftrunc = false := rfl
@[simp] theorem Block.clearStatus_hovf (b : Block) : b.clearStatus.hovf = false := rfl

@[simp] theorem Block.packHeader_fields (cs : BitVec 16) (b : Block) : (b.packHeader cs).fields = b.fields := rfl
@[simp] theorem Block.packHeader_hdr (cs : BitVec 16) (b : Block) : (b.packHeader cs).hdr = pack12 b.fields cs := rfl
@[simp] theorem Block.packHeader_hlen (cs : BitVec 16) (b : Block) : (b.packHeader cs).hlen = 12#4 := rfl
@[simp] theorem Block.packHeader_crc (cs : BitVec 16) (b : Block) : (b.packHeader cs).crc = b.crc := rfl
@[simp] theorem Block.packHeader_pcnt (cs : BitVec 16) (b : Block) : (b.packHeader cs).pcnt = b.pcnt := rfl
@[simp] theorem Block.packHeader_err (cs : BitVec 16) (b : Block) : (b.packHeader cs).err = b.err := rfl
@[simp] theorem Block.packHeader_valid (cs : BitVec 16) (b : Block) : (b.packHeader cs).valid = b.valid := rfl
@[simp] theorem Block.packHeader_vdone (cs : BitVec 16) (b : Block) : (b.packHeader cs).vdone = b.vdone := rfl
@[simp] theorem Block.packHeader_excess (cs : BitVec 16) (b : Block) : (b.packHeader cs).excess = b.excess := rfl
@[simp] theorem Block.packHeader_ftrunc (cs : BitVec 16) (b : Block) : (b.packHeader cs).ftrunc = b.ftrunc := rfl
@[simp] theorem Block.packHeader_hovf (cs : BitVec 16) (b : Block) : (b.packHeader cs).hovf = b.hovf := rfl

@[simp] theorem Block.foldCrc_fields (bytes : List Byte) (b : Block) : (b.foldCrc bytes).fields = b.fields := rfl
@[simp] theorem Block.foldCrc_hdr (bytes : List Byte) (b : Block) : (b.foldCrc bytes).hdr = b.hdr := rfl
@[simp] theorem Block.foldCrc_hlen (bytes : List Byte) (b : Block) : (b.foldCrc bytes).hlen = b.hlen := rfl
@[simp] theorem Block.foldCrc_crc (bytes : List Byte) (b : Block) : (b.foldCrc bytes).crc = crc16 bytes b.crc := rfl
@[simp] theorem Block.foldCrc_pcnt (bytes : List Byte) (b : Block) : (b.foldCrc bytes).pcnt = b.pcnt := rfl
@[simp] theorem Block.foldCrc_err (bytes : List Byte) (b : Block) : (b.foldCrc bytes).err = b.err := rfl
@[simp] theorem Block.foldCrc_valid (bytes : List Byte) (b : Block) : (b.foldCrc bytes).valid = b.valid := rfl
@[simp] theorem Block.foldCrc_vdone (bytes : List Byte) (b : Block) : (b.foldCrc bytes).vdone = b.vdone := rfl
@[simp] theorem Block.foldCrc_excess (bytes : List Byte) (b : Block) : (b.foldCrc bytes).excess = b.excess := rfl
@[simp] theorem Block.foldCrc_ftrunc (bytes : List Byte) (b : Block) : (b.foldCrc bytes).ftrunc = b.ftrunc := rfl
@[simp] theorem Block.foldCrc_hovf (bytes : List Byte) (b : Block) : (b.foldCrc bytes).hovf = b.hovf := rfl

@[simp] theorem Block.takePayload_fields (x : Byte) (b : Block) : (b.takePayload x).fields = b.fields := rfl
@[simp] theorem Block.takePayload_hdr (x : Byte) (b : Block) : (b.takePayload x).hdr = b.hdr := rfl
@[simp] theorem Block.takePayload_hlen (x : Byte) (b : Block) : (b.takePayload x).hlen = b.hlen := rfl
@[simp] theorem Block.takePayload_crc (x : Byte) (b : Block) : (b.takePayload x).crc = (if b.inPayloadWindow then crcStep b.crc x else b.crc) := rfl
@[simp] theorem Block.takePayload_pcnt (x : Byte) (b : Block) : (b.takePayload x).pcnt = saturatingIncrement b.pcnt := rfl
@[simp] theorem Block.takePayload_err (x : Byte) (b : Block) : (b.takePayload x).err = b.err := rfl
@[simp] theorem Block.takePayload_valid (x : Byte) (b : Block) : (b.takePayload x).valid = b.valid := rfl
@[simp] theorem Block.takePayload_vdone (x : Byte) (b : Block) : (b.takePayload x).vdone = b.vdone := rfl
@[simp] theorem Block.takePayload_excess (x : Byte) (b : Block) : (b.takePayload x).excess = b.excess := rfl
@[simp] theorem Block.takePayload_ftrunc (x : Byte) (b : Block) : (b.takePayload x).ftrunc = b.ftrunc := rfl
@[simp] theorem Block.takePayload_hovf (x : Byte) (b : Block) : (b.takePayload x).hovf = b.hovf := rfl

@[simp] theorem Block.failCheck_fields (code : BitVec 3) (trailing : Bool) (b : Block) : (b.failCheck code trailing).fields = b.fields := rfl
@[simp] theorem Block.failCheck_hdr (code : BitVec 3) (trailing : Bool) (b : Block) : (b.failCheck code trailing).hdr = b.hdr := rfl
@[simp] theorem Block.failCheck_hlen (code : BitVec 3) (trailing : Bool) (b : Block) : (b.failCheck code trailing).hlen = b.hlen := rfl
@[simp] theorem Block.failCheck_crc (code : BitVec 3) (trailing : Bool) (b : Block) : (b.failCheck code trailing).crc = b.crc := rfl
@[simp] theorem Block.failCheck_pcnt (code : BitVec 3) (trailing : Bool) (b : Block) : (b.failCheck code trailing).pcnt = b.pcnt := rfl
@[simp] theorem Block.failCheck_err (code : BitVec 3) (trailing : Bool) (b : Block) : (b.failCheck code trailing).err = code := rfl
@[simp] theorem Block.failCheck_valid (code : BitVec 3) (trailing : Bool) (b : Block) : (b.failCheck code trailing).valid = false := rfl
@[simp] theorem Block.failCheck_vdone (code : BitVec 3) (trailing : Bool) (b : Block) : (b.failCheck code trailing).vdone = false := rfl
@[simp] theorem Block.failCheck_excess (code : BitVec 3) (trailing : Bool) (b : Block) : (b.failCheck code trailing).excess = trailing := rfl
@[simp] theorem Block.failCheck_ftrunc (code : BitVec 3) (trailing : Bool) (b : Block) : (b.failCheck code trailing).ftrunc = b.ftrunc := rfl
@[simp] theorem Block.failCheck_hovf (code : BitVec 3) (trailing : Bool) (b : Block) : (b.failCheck code trailing).hovf = b.hovf := rfl

@[simp] theorem truncWrite_fields (n : Nat) (put : Fields → BitVec n → Fields) (w : Word) (b : Block) : (truncWrite n put w b).fields = put b.fields (writeOperand n w) := rfl
@[simp] theorem truncWrite_hdr (n : Nat) (put : Fields → BitVec n → Fields) (w : Word) (b : Block) : (truncWrite n put w b).hdr = b.hdr := rfl
@[simp] theorem truncWrite_hlen (n : Nat) (put : Fields → BitVec n → Fields) (w : Word) (b : Block) : (truncWrite n put w b).hlen = b.hlen := rfl
@[simp] theorem truncWrite_crc (n : Nat) (put : Fields → BitVec n → Fields) (w : Word) (b : Block) : (truncWrite n put w b).crc = b.crc := rfl
@[simp] theorem truncWrite_pcnt (n : Nat) (put : Fields → BitVec n → Fields) (w : Word) (b : Block) : (truncWrite n put w b).pcnt = b.pcnt := rfl
@[simp] theorem truncWrite_err (n : Nat) (put : Fields → BitVec n → Fields) (w : Word) (b : Block) : (truncWrite n put w b).err = b.err := rfl
@[simp] theorem truncWrite_valid (n : Nat) (put : Fields → BitVec n → Fields) (w : Word) (b : Block) : (truncWrite n put w b).valid = b.valid := rfl
@[simp] theorem truncWrite_vdone (n : Nat) (put : Fields → BitVec n → Fields) (w : Word) (b : Block) : (truncWrite n put w b).vdone = b.vdone := rfl
@[simp] theorem truncWrite_excess (n : Nat) (put : Fields → BitVec n → Fields) (w : Word) (b : Block) : (truncWrite n put w b).excess = b.excess := rfl
@[simp] theorem truncWrite_ftrunc (n : Nat) (put : Fields → BitVec n → Fields) (w : Word) (b : Block) : (truncWrite n put w b).ftrunc = (b.ftrunc || lostBits n w) := rfl
@[simp] theorem truncWrite_hovf (n : Nat) (put : Fields → BitVec n → Fields) (w : Word) (b : Block) : (truncWrite n put w b).hovf = b.hovf := rfl

@[simp] theorem State.resetBlock_block (s : State) : s.resetBlock.block = Block.reset := rfl
@[simp] theorem State.resetBlock_pending (s : State) : s.resetBlock.pending = s.pending := rfl
@[simp] theorem State.resetBlock_readData (s : State) : s.resetBlock.readData = s.readData := rfl

@[simp] theorem State.withProgram_block (s : State) (as : List Access) : (s.withProgram as).block = s.block := rfl
@[simp] theorem State.withProgram_pending (s : State) (as : List Access) : (s.withProgram as).pending = as.map HostEvent.access ++ s.pending := rfl
@[simp] theorem State.withProgram_readData (s : State) (as : List Access) : (s.withProgram as).readData = s.readData := rfl

@[simp] theorem State.withFetchWord_block (s : State) (nbits w : Nat) : (s.withFetchWord nbits w).block = s.block := rfl
@[simp] theorem State.withFetchWord_pending (s : State) (nbits w : Nat) : (s.withFetchWord nbits w).pending = .access (tableEncoded nbits w).toAccess :: s.pending := rfl
@[simp] theorem State.withFetchWord_readData (s : State) (nbits w : Nat) : (s.withFetchWord nbits w).readData = s.readData := rfl

end Sys2Proof.Machine
end

