-- ==== Sys2Proof/Laws/Ops.lean ====
section
/-! SUPPORT. One lemma for each shared operation that says all it can do; later proofs cite it instead of unfolding it. -/

namespace Sys2Proof.Machine

/-- A write access answers a next state, and it is the one with the effect done on the block. -/
@[simp] theorem completeWrite_eq_next (effect : Block → Block) (s t : State) :
    completeWrite effect s = .next t ↔ { s with block := effect s.block } = t := by
  simp [completeWrite]

/-- A read access answers a next state, and it is the one with the word handed to the host. -/
@[simp] theorem completeRead_eq_next (w : Word) (s t : State) :
    completeRead w s = .next t ↔ { s with readData := s.readData ++ [w] } = t := by
  simp [completeRead]

/-- R76: a written word loses a bit exactly when it does not fit the target. -/
theorem lostBits_iff (n : Nat) (w : Word) : lostBits n w = true ↔ 2 ^ n ≤ w.toNat := by
  have h : w >>> n = 0#32 ↔ w.toNat < 2 ^ n := by
    rw [← BitVec.toNat_inj, BitVec.toNat_ushiftRight, Nat.shiftRight_eq_div_pow]
    simp
  rw [lostBits, bne_iff_ne, Ne, h, Nat.not_lt]

/-- R76: the operand is the data word modulo two to the target's width. -/
theorem writeOperand_toNat (n : Nat) (w : Word) : (writeOperand n w).toNat = w.toNat % 2 ^ n := by
  simp [writeOperand]

/-- R7: a register of at most 32 bits reads as its value. -/
theorem readOperand_toNat {n : Nat} (h : n ≤ 32) (v : BitVec n) : (readOperand v).toNat = v.toNat := by
  simpa [readOperand] using Nat.mod_eq_of_lt (v.isLt.trans_le (Nat.pow_le_pow_right (by decide) h))

/-- What a write keeps of a value that fits: all of it. -/
theorem writeOperand_readOperand {n : Nat} (h : n ≤ 32) (v : BitVec n) : writeOperand n (readOperand v) = v := by
  apply BitVec.eq_of_toNat_eq
  rw [writeOperand_toNat, readOperand_toNat h, Nat.mod_eq_of_lt v.isLt]

/-- R144, the byte taken: HLEN is below 12. -/
theorem Block.appendHeader_of_lt {b : Block} (h : b.hlen < 12#4) (x : Byte) :
    b.appendHeader x = { b with hdr := b.hdr.setIfInBounds b.hlen.toNat x, hlen := b.hlen + 1#4 } :=
  if_pos h

/-- R144, the byte dropped: HLEN is not below 12. -/
theorem Block.appendHeader_of_not_lt {b : Block} (h : ¬ b.hlen < 12#4) (x : Byte) :
    b.appendHeader x = { b with hovf := true } :=
  if_neg h

/-- R145, R165, R166: all that a command on a full header can do. -/
theorem Block.withFullHeader_cases (effect : Block → Block) (b : Block) :
    (b.hlen < 12#4 ∧ b.withFullHeader effect = b.result errTruncatedHeader) ∨
    (¬ b.hlen < 12#4 ∧ b.withFullHeader effect = (effect b).result errNone) := by
  by_cases h : b.hlen < 12#4
  · exact .inl ⟨h, by simp [Block.withFullHeader, Block.headerShort, h]⟩
  · exact .inr ⟨h, by simp [Block.withFullHeader, Block.headerShort, h]⟩

/-- R180: all that VCHECK can do. -/
theorem Block.verify_cases (rejectExcess : Bool) (b : Block) :
    (b.hlen < 12#4 ∧ b.verify rejectExcess = b.failCheck errTruncatedHeader false) ∨
    (¬ b.hlen < 12#4 ∧ b.pcnt < b.fields.payload_len.setWidth 32 ∧
      b.verify rejectExcess = b.failCheck errTruncatedFrame false) ∨
    (¬ b.hlen < 12#4 ∧ b.fields.payload_len.setWidth 32 < b.pcnt ∧ rejectExcess = true ∧
      b.verify rejectExcess = b.failCheck errLengthExcess true) ∨
    (¬ b.hlen < 12#4 ∧ ¬ b.pcnt < b.fields.payload_len.setWidth 32 ∧
      ¬ (b.fields.payload_len.setWidth 32 < b.pcnt ∧ rejectExcess = true) ∧
      b.verify rejectExcess =
        { b with
          excess := decide (b.fields.payload_len.setWidth 32 < b.pcnt),
          valid := b.crc == b.fields.checksum, vdone := true, err := errNone }) := by
  by_cases h : b.hlen < 12#4
  · exact .inl ⟨h, by simp [Block.verify, Block.headerShort, h]⟩
  by_cases hl : b.pcnt < b.fields.payload_len.setWidth 32
  · exact .inr (.inl ⟨h, hl, by simp [Block.verify, Block.headerShort, h, hl]⟩)
  by_cases hx : b.fields.payload_len.setWidth 32 < b.pcnt ∧ rejectExcess = true
  · exact .inr (.inr (.inl ⟨h, hx.1, hx.2, by simp [Block.verify, Block.headerShort, h, hl, hx.1, hx.2]⟩))
  · exact .inr (.inr (.inr ⟨h, hl, hx, by simp only [Block.verify, Block.headerShort, h, hl, hx, if_false, decide_false, Bool.false_eq_true]⟩))

/-- R26: PCNT counts up to its greatest value and stays there. -/
theorem saturatingIncrement_toNat (p : BitVec 32) :
    (saturatingIncrement p).toNat = min (p.toNat + 1) (2 ^ 32 - 1) := by
  unfold saturatingIncrement
  split
  · next h => simp [h]
  · next h =>
    have : p.toNat ≠ 2 ^ 32 - 1 := fun e => h (BitVec.eq_of_toNat_eq (by simpa using e))
    have := p.isLt
    simp only [BitVec.toNat_add, BitVec.toNat_ofNat]
    omega

/-- R164: the payload window, on the values of the registers. -/
theorem Block.inPayloadWindow_iff (b : Block) :
    b.inPayloadWindow = true ↔ b.pcnt.toNat < b.fields.payload_len.toNat := by
  have := b.fields.payload_len.isLt
  simp only [Block.inPayloadWindow, decide_eq_true_eq, BitVec.lt_def, BitVec.toNat_setWidth]
  omega

/-- R161: the empty byte sequence. -/
@[simp] theorem crc16_nil (c : BitVec 16) : crc16 [] c = c := rfl

/-- R161: the first byte of a sequence is folded first. -/
@[simp] theorem crc16_cons (x : Byte) (s : List Byte) (c : BitVec 16) : crc16 (x :: s) c = crc16 s (crcStep c x) := rfl

/-- R161: a sequence in two parts. -/
theorem crc16_append (s t : List Byte) (c : BitVec 16) : crc16 (s ++ t) c = crc16 t (crc16 s c) := by
  simp [crc16]

/-- R50: the offset of a bus address, where the block answers it. -/
theorem offsetFrom_eq_some (base address offset : Nat) :
    offsetFrom base address = some offset ↔ offset < Config.regionSize ∧ address = base + offset := by
  unfold offsetFrom
  split <;> simp <;> omega

/-- R61: a sequence of accesses in two parts. -/
theorem performAll_append (as bs : List Access) (s : State) :
    performAll (as ++ bs) s =
      match performAll as s with
      | .next t => performAll bs t
      | .fault f => .fault f
      | .refused r => .refused r := by
  induction as generalizing s with
  | nil => rfl
  | cons a rest ih =>
    simp only [List.cons_append, performAll]
    cases performAccess a s with
    | next t => exact ih t
    | fault f => rfl
    | refused r => rfl

/-- All that a step can do. -/
theorem step_cases (s : State) :
    (s.pending = [] ∧ step s = .next s) ∨
    (∃ e rest, s.pending = e :: rest ∧ step s = performEvent e { s with pending := rest }) := by
  cases h : s.pending with
  | nil => exact .inl ⟨rfl, by simp [step, State.takeEvent, h]⟩
  | cons e rest => exact .inr ⟨e, rest, rfl, by simp [step, State.takeEvent, h]⟩

end Sys2Proof.Machine
end

