-- ==== Sys2Proof/Laws/Decode.lean ====
section
/-! SUPPORT. The opcode table's rows as data: no two overlap, and each row's fixed bits lie under its mask. -/

namespace Sys2Proof

/-- No access key fits two rows of format A. -/
theorem accessRows_disjoint :
    accessRows.Pairwise fun r q => r.mask &&& q.mask &&& (r.value ^^^ q.value) ≠ 0#8 := by decide

/-- Every row's value lies under its mask. -/
theorem accessRows_value_under_mask : ∀ r ∈ accessRows, r.value &&& r.mask = r.value := by decide

/-- No command word fits two rows of format C. -/
theorem commandRows_disjoint : commandRows.Pairwise fun c d => commandWord c ≠ commandWord d := by decide

/-- Every command has its row. -/
theorem command_mem_commandRows (c : Command) : c ∈ commandRows := by cases c <;> decide

/-- A write of a register passes the bus checks exactly when its offset is not a read-only one. -/
@[simp] theorem Reg.wr_wellFormed (r : Reg) (w : Word) : (r.wr w).wellFormed = !readOnlyOffsets.contains r.offset := by
  cases r <;>
    simp [Access.wellFormed, Access.widthOk, Access.alignedOk, Access.mappedOk, Access.directionOk, Reg.wr, Reg.offset,
      Config.windowSize]

/-- A read of a register passes the bus checks exactly when its offset is not a write-only one. -/
@[simp] theorem Reg.rd_wellFormed (r : Reg) : r.rd.wellFormed = !writeOnlyOffsets.contains r.offset := by
  cases r <;> decide

/-- R70: what a 32-bit write of a register decodes to. -/
theorem decodeAccess_wr (r : Reg) (w : Word) :
    decodeAccess (r.wr w) =
      match r with
      | .cmd => .ok (.wrCmd w)
      | .version => .ok (.wrVersion w)
      | .audioType => .ok (.wrAudioType w)
      | .sampleRate => .ok (.wrSampleRate w)
      | .channelCount => .ok (.wrChannelCount w)
      | .frameFlag => .ok (.wrFrameFlag w)
      | .frameSeq => .ok (.wrFrameSeq w)
      | .timestamp => .ok (.wrTimestamp w)
      | .payloadLen => .ok (.wrPayloadLen w)
      | .checksum => .ok (.wrChecksum w)
      | .hdrData => .ok (.wrHdrData w)
      | .crcData => .ok (.wrCrcData w)
      | .payData => .ok (.wrPayData w)
      | .status | .hdrW0 | .hdrW1 | .hdrW2 | .hlen | .crc | .pcnt => .error .writeOfReadOnly := by
  cases r <;>
    simp [decodeAccess, Reg.wr, Reg.offset, Config.windowSize, accessKey, AccessKind.data, accessRows, writeRows, readRows]

/-- R70: what a 32-bit read of a register decodes to. -/
theorem decodeAccess_rd (r : Reg) :
    decodeAccess r.rd =
      match r with
      | .status => .ok .rdStatus
      | .version => .ok .rdVersion
      | .audioType => .ok .rdAudioType
      | .sampleRate => .ok .rdSampleRate
      | .channelCount => .ok .rdChannelCount
      | .frameFlag => .ok .rdFrameFlag
      | .frameSeq => .ok .rdFrameSeq
      | .timestamp => .ok .rdTimestamp
      | .payloadLen => .ok .rdPayloadLen
      | .checksum => .ok .rdChecksum
      | .hdrW0 => .ok .rdHdrW0
      | .hdrW1 => .ok .rdHdrW1
      | .hdrW2 => .ok .rdHdrW2
      | .hlen => .ok .rdHlen
      | .crc => .ok .rdCrc
      | .pcnt => .ok .rdPcnt
      | .cmd | .hdrData | .crcData | .payData => .error .readOfWriteOnly := by
  cases r <;> rfl

namespace Machine

/-- R71, R79: a command mnemonic, `WR CMD` of its word, performs the command. -/
theorem performAccess_issue (c : Command) (s : State) : performAccess (issue c) s = exec c.instr s := by
  cases c <;> simp only [performAccess, issue, decodeAccess_wr] <;> rfl

end Machine

end Sys2Proof
end

