-- ==== Sys2Proof/Laws/PerInstr.lean ====
section
/-! SUPPORT. Statements made per instruction: the encoding of every instruction passes its format's checks, which are written
apart from the decoder (WellFormed.lean). -/

namespace Sys2Proof.Laws.EncodedWellFormed

def Statement (i : Instr) : Prop := (encode i).wellFormed = true

theorem nop : Statement .nop := rfl
theorem pack : Statement .pack := rfl
theorem packZ : Statement .packZ := rfl
theorem unpack : Statement .unpack := rfl
theorem crcInit : Statement .crcInit := rfl
theorem crcHdr : Statement .crcHdr := rfl
theorem crcHdrZ : Statement .crcHdrZ := rfl
theorem crcSet : Statement .crcSet := rfl
theorem vcheck : Statement .vcheck := rfl
theorem hdrClr : Statement .hdrClr := rfl
theorem statClr : Statement .statClr := rfl
theorem wrCmd (w : Word) : Statement (.wrCmd w) := (Reg.wr_wellFormed .cmd w).trans (by decide)
theorem wrVersion (w : Word) : Statement (.wrVersion w) := (Reg.wr_wellFormed .version w).trans (by decide)
theorem wrAudioType (w : Word) : Statement (.wrAudioType w) := (Reg.wr_wellFormed .audioType w).trans (by decide)
theorem wrSampleRate (w : Word) : Statement (.wrSampleRate w) := (Reg.wr_wellFormed .sampleRate w).trans (by decide)
theorem wrChannelCount (w : Word) : Statement (.wrChannelCount w) := (Reg.wr_wellFormed .channelCount w).trans (by decide)
theorem wrFrameFlag (w : Word) : Statement (.wrFrameFlag w) := (Reg.wr_wellFormed .frameFlag w).trans (by decide)
theorem wrFrameSeq (w : Word) : Statement (.wrFrameSeq w) := (Reg.wr_wellFormed .frameSeq w).trans (by decide)
theorem wrTimestamp (w : Word) : Statement (.wrTimestamp w) := (Reg.wr_wellFormed .timestamp w).trans (by decide)
theorem wrPayloadLen (w : Word) : Statement (.wrPayloadLen w) := (Reg.wr_wellFormed .payloadLen w).trans (by decide)
theorem wrChecksum (w : Word) : Statement (.wrChecksum w) := (Reg.wr_wellFormed .checksum w).trans (by decide)
theorem wrHdrData (w : Word) : Statement (.wrHdrData w) := (Reg.wr_wellFormed .hdrData w).trans (by decide)
theorem wrCrcData (w : Word) : Statement (.wrCrcData w) := (Reg.wr_wellFormed .crcData w).trans (by decide)
theorem wrPayData (w : Word) : Statement (.wrPayData w) := (Reg.wr_wellFormed .payData w).trans (by decide)
theorem rdStatus : Statement .rdStatus := rfl
theorem rdVersion : Statement .rdVersion := rfl
theorem rdAudioType : Statement .rdAudioType := rfl
theorem rdSampleRate : Statement .rdSampleRate := rfl
theorem rdChannelCount : Statement .rdChannelCount := rfl
theorem rdFrameFlag : Statement .rdFrameFlag := rfl
theorem rdFrameSeq : Statement .rdFrameSeq := rfl
theorem rdTimestamp : Statement .rdTimestamp := rfl
theorem rdPayloadLen : Statement .rdPayloadLen := rfl
theorem rdChecksum : Statement .rdChecksum := rfl
theorem rdHdrW0 : Statement .rdHdrW0 := rfl
theorem rdHdrW1 : Statement .rdHdrW1 := rfl
theorem rdHdrW2 : Statement .rdHdrW2 := rfl
theorem rdHlen : Statement .rdHlen := rfl
theorem rdCrc : Statement .rdCrc := rfl
theorem rdPcnt : Statement .rdPcnt := rfl

end Sys2Proof.Laws.EncodedWellFormed
end

