-- ==== Sys2Proof/Tests/Slice0.lean ====
section
/-! SUPPORT. The model's own tests: ill-formed terms that the checks refuse, one written-out word for every constructor, one
or two single steps for every instruction with the spec's own example values, and a witness for the premises and the clauses
of every statement that has them. -/

namespace Sys2Proof.Tests

open Sys2Proof Sys2Proof.Machine

/-! ### Helpers -/

/-- The next state of an outcome. -/
def nextOf : Host.Outcome State Fault Refusal → Option State
  | .next t => some t
  | .fault _ => none
  | .refused _ => none

/-- A value of the block after one instruction. -/
def after {α : Type} (i : Instr) (s : State) (look : Block → α) : Option α :=
  (nextOf (exec i s)).map fun t => look t.block

/-- The words that one instruction hands to the host. -/
def read (i : Instr) (s : State) : Option (List Word) := (nextOf (exec i s)).map State.readData

/-- The reset state with its block changed. -/
def resetWith (change : Block → Block) : State := { State.reset with block := change Block.reset }

/-- The fields of the known vector (95_test_vectors.md V1). -/
def knownFields : Fields := ⟨1, 3, 16000, 1, 1, 1, 1000, 28, 0xF85B⟩

/-- The packed header of the known vector (V1). -/
def knownHeader : Vector Byte 12 := #v[0x10, 0x33, 0xE8, 0x05, 0x00, 0x01, 0x03, 0xE8, 0x00, 0x1C, 0xF8, 0x5B]

/-- The reset state with the known vector's fields. -/
def knownFieldState : State := resetWith fun b => { b with fields := knownFields }

/-- The reset state with the known vector's header loaded. -/
def knownHeaderState : State := resetWith fun b => { b with hdr := knownHeader, hlen := 12 }

/-! ### Well-formedness: an ill-formed term for each check (R56, R201, R74) -/

theorem test_wf_width : (Access.mk .read 0x08 8).wellFormed = false ∧
    decode (.access ⟨.read, 0x08, 8⟩) = .error (.bus .width) := by decide

theorem test_wf_alignment : (Access.mk .read 0x0A 32).wellFormed = false ∧
    decode (.access ⟨.read, 0x0A, 32⟩) = .error (.bus .misaligned) := by decide

theorem test_wf_range : (Access.mk .read 0x50 32).wellFormed = false ∧
    decode (.access ⟨.read, 0x50, 32⟩) = .error (.bus .unmapped) := by decide

theorem test_wf_read_of_write_only : (Access.mk .read 0x38 32).wellFormed = false ∧
    decode (.access ⟨.read, 0x38, 32⟩) = .error (.bus .readOfWriteOnly) := by decide

theorem test_wf_write_of_read_only : (Access.mk (.write 1) 0x04 32).wellFormed = false ∧
    decode (.access ⟨.write 1, 0x04, 32⟩) = .error (.bus .writeOfReadOnly) := by decide

theorem test_wf_command_reserved : commandWellFormed 0x00000020 = false ∧
    decode (.command 0x00000020) = .error (.illegal .reservedBits) := by decide

theorem test_wf_command_op : commandWellFormed 0x00000009 = false ∧
    decode (.command 0x00000009) = .error (.illegal .opRange) := by decide

theorem test_wf_command_zero : commandWellFormed 0x00000010 = false ∧
    decode (.command 0x00000010) = .error (.illegal .zeroModifier) := by decide

/-- R208 level 1: an 8-bit access that is misaligned and out of range is refused for its width. -/
theorem test_wf_order : decode (.access ⟨.read, 0x51, 8⟩) = .error (.bus .width) := by decide

/-! ### Decoding: a word of every constructor, written out from R72 and from the access keys of R100 to R167 -/

theorem test_decode_commands :
    decodeTableWord 32 0b00000000000000000000000000000000 = some .nop ∧
    decodeTableWord 32 0b00000000000000000000000000000001 = some .pack ∧
    decodeTableWord 32 0b00000000000000000000000000010001 = some .packZ ∧
    decodeTableWord 32 0b00000000000000000000000000000010 = some .unpack ∧
    decodeTableWord 32 0b00000000000000000000000000000011 = some .crcInit ∧
    decodeTableWord 32 0b00000000000000000000000000000100 = some .crcHdr ∧
    decodeTableWord 32 0b00000000000000000000000000010100 = some .crcHdrZ ∧
    decodeTableWord 32 0b00000000000000000000000000000101 = some .crcSet ∧
    decodeTableWord 32 0b00000000000000000000000000000110 = some .vcheck ∧
    decodeTableWord 32 0b00000000000000000000000000000111 = some .hdrClr ∧
    decodeTableWord 32 0b00000000000000000000000000001000 = some .statClr := by decide

/-- Bit 7 of the key is 1, the bits below it are the offset (R70). -/
theorem test_decode_writes :
    decodeTableWord 8 0b10000000 = some (.wrCmd 0) ∧
    decodeTableWord 8 0b10001000 = some (.wrVersion 0) ∧
    decodeTableWord 8 0b10001100 = some (.wrAudioType 0) ∧
    decodeTableWord 8 0b10010000 = some (.wrSampleRate 0) ∧
    decodeTableWord 8 0b10010100 = some (.wrChannelCount 0) ∧
    decodeTableWord 8 0b10011000 = some (.wrFrameFlag 0) ∧
    decodeTableWord 8 0b10011100 = some (.wrFrameSeq 0) ∧
    decodeTableWord 8 0b10100000 = some (.wrTimestamp 0) ∧
    decodeTableWord 8 0b10100100 = some (.wrPayloadLen 0) ∧
    decodeTableWord 8 0b10101000 = some (.wrChecksum 0) ∧
    decodeTableWord 8 0b10111000 = some (.wrHdrData 0) ∧
    decodeTableWord 8 0b11000100 = some (.wrCrcData 0) ∧
    decodeTableWord 8 0b11001000 = some (.wrPayData 0) := by decide

theorem test_decode_reads :
    decodeTableWord 8 0b00000100 = some .rdStatus ∧
    decodeTableWord 8 0b00001000 = some .rdVersion ∧
    decodeTableWord 8 0b00001100 = some .rdAudioType ∧
    decodeTableWord 8 0b00010000 = some .rdSampleRate ∧
    decodeTableWord 8 0b00010100 = some .rdChannelCount ∧
    decodeTableWord 8 0b00011000 = some .rdFrameFlag ∧
    decodeTableWord 8 0b00011100 = some .rdFrameSeq ∧
    decodeTableWord 8 0b00100000 = some .rdTimestamp ∧
    decodeTableWord 8 0b00100100 = some .rdPayloadLen ∧
    decodeTableWord 8 0b00101000 = some .rdChecksum ∧
    decodeTableWord 8 0b00101100 = some .rdHdrW0 ∧
    decodeTableWord 8 0b00110000 = some .rdHdrW1 ∧
    decodeTableWord 8 0b00110100 = some .rdHdrW2 ∧
    decodeTableWord 8 0b00111100 = some .rdHlen ∧
    decodeTableWord 8 0b01000000 = some .rdCrc ∧
    decodeTableWord 8 0b01001100 = some .rdPcnt := by decide

/-- R70: the data word of a write reaches its instruction whole. -/
theorem test_decode_data_word :
    decode (.access ⟨.write 0xFFFFFFFF, 0x24, 32⟩) = .ok (.wrPayloadLen 0xFFFFFFFF) := by decide

/-- Keys with no row: a read of CMD, a write of STATUS, an unmapped offset (R77). -/
theorem test_decode_no_row :
    decodeTableWord 8 0x00 = none ∧ decodeTableWord 8 0x84 = none ∧ decodeTableWord 8 0x50 = none := by decide

/-! ### Register access: the examples of R101 to R125 -/

theorem test_wrVersion_truncates : after (.wrVersion 0x1F) State.reset (fun b => (b.fields.version, b.ftrunc)) =
    some (0xF, true) := by decide

theorem test_wrAudioType_truncates : after (.wrAudioType 0x103) State.reset (fun b => (b.fields.audio_type, b.ftrunc)) =
    some (0x03, true) := by decide

theorem test_wrSampleRate_fits : after (.wrSampleRate 0xFFFF) State.reset (fun b => (b.fields.sample_rate, b.ftrunc)) =
    some (0xFFFF, false) := by decide

theorem test_wrSampleRate_truncates : after (.wrSampleRate 0x10000) State.reset (fun b => (b.fields.sample_rate, b.ftrunc)) =
    some (0x0000, true) := by decide

theorem test_wrChannelCount_truncates :
    after (.wrChannelCount 5) State.reset (fun b => (b.fields.channel_count, b.ftrunc)) = some (1, true) := by decide

theorem test_wrFrameFlag_truncates : after (.wrFrameFlag 6) State.reset (fun b => (b.fields.frame_flag, b.ftrunc)) =
    some (2, true) := by decide

theorem test_wrFrameSeq_fits : after (.wrFrameSeq 0xFFFF) State.reset (fun b => (b.fields.frame_seq, b.ftrunc)) =
    some (0xFFFF, false) := by decide

theorem test_wrTimestamp_truncates : after (.wrTimestamp 0x186A0) State.reset (fun b => (b.fields.timestamp, b.ftrunc)) =
    some (0x86A0, true) := by decide

theorem test_wrPayloadLen_fits : after (.wrPayloadLen 28) State.reset (fun b => (b.fields.payload_len, b.ftrunc)) =
    some (28, false) := by decide

theorem test_wrChecksum_truncates : after (.wrChecksum 0x1F85B) State.reset (fun b => (b.fields.checksum, b.ftrunc)) =
    some (0xF85B, true) := by decide

/-- R110's example: FTRUNC alone reads as bit 7. -/
theorem test_rdStatus_ftrunc : read .rdStatus (resetWith fun b => { b with ftrunc := true }) = some [0x00000080] := by decide

/-- R110: VALID and VDONE with ERR 0 read as 0x30. -/
theorem test_rdStatus_good_frame :
    read .rdStatus (resetWith fun b => { b with valid := true, vdone := true }) = some [0x00000030] := by decide

theorem test_rdVersion : read .rdVersion knownFieldState = some [1] := by decide

theorem test_rdAudioType : read .rdAudioType knownFieldState = some [3] := by decide

theorem test_rdSampleRate : read .rdSampleRate knownFieldState = some [0x3E80] := by decide

theorem test_rdChannelCount : read .rdChannelCount knownFieldState = some [1] := by decide

theorem test_rdFrameFlag : read .rdFrameFlag (resetWith fun b => { b with fields := { b.fields with frame_flag := 2 } }) =
    some [2] := by decide

theorem test_rdFrameSeq : read .rdFrameSeq knownFieldState = some [1] := by decide

theorem test_rdTimestamp : read .rdTimestamp knownFieldState = some [0x03E8] := by decide

theorem test_rdPayloadLen : read .rdPayloadLen knownFieldState = some [0x001C] := by decide

theorem test_rdChecksum : read .rdChecksum knownFieldState = some [0xF85B] := by decide

theorem test_rdHdrW0 : read .rdHdrW0 knownHeaderState = some [0x1033E805] := by decide

theorem test_rdHdrW1 : read .rdHdrW1 knownHeaderState = some [0x000103E8] := by decide

theorem test_rdHdrW2 : read .rdHdrW2 knownHeaderState = some [0x001CF85B] := by decide

theorem test_rdHlen : read .rdHlen knownHeaderState = some [12] := by decide

/-- R124, R38: CRC reads 0xFFFF after reset. -/
theorem test_rdCrc : read .rdCrc State.reset = some [0x0000FFFF] := by decide

theorem test_rdPcnt : read .rdPcnt (resetWith fun b => { b with pcnt := 30 }) = some [30] := by decide

/-! ### Header codec: the examples of R142 to R146 -/

theorem test_pack_known : after .pack knownFieldState (fun b => (b.hdr, b.hlen)) = some (knownHeader, 12) := by decide

theorem test_packZ_known : after .packZ knownFieldState (fun b => (b.hdr.toList, b.fields.checksum)) =
    some ([0x10, 0x33, 0xE8, 0x05, 0x00, 0x01, 0x03, 0xE8, 0x00, 0x1C, 0x00, 0x00], 0xF85B) := by decide

theorem test_wrHdrData_first : after (.wrHdrData 0x10) State.reset (fun b => (b.hdr[0], b.hlen)) = some (0x10, 1) := by decide

/-- R144: after PACK every HDR_DATA write is dropped. -/
theorem test_wrHdrData_full : after (.wrHdrData 0x77) knownHeaderState (fun b => (b.hdr, b.hlen, b.hovf)) =
    some (knownHeader, 12, true) := by decide

theorem test_unpack_known : after .unpack knownHeaderState (fun b => (b.fields, b.err)) = some (knownFields, 0) := by decide

/-- V3: 11 header bytes give ERR 1 and leave the fields. -/
theorem test_unpack_truncated :
    after .unpack (resetWith fun b => { b with hlen := 11 }) (fun b => (b.fields, b.err)) = some (⟨0, 0, 0, 0, 0, 0, 0, 0, 0⟩, 1) := by
  decide

theorem test_hdrClr : after .hdrClr knownHeaderState (fun b => (hdrWord0 b.hdr, hdrWord1 b.hdr, hdrWord2 b.hdr, b.hlen)) =
    some (0, 0, 0, 0) := by decide

/-! ### Checksum engine: the examples of R162 to R167 -/

theorem test_crcInit : after .crcInit (resetWith fun b => { b with crc := 0x1234, pcnt := 7, valid := true, vdone := true })
    (fun b => (b.crc, b.pcnt, b.valid, b.vdone)) = some (0xFFFF, 0, false, false) := by decide

theorem test_wrCrcData : after (.wrCrcData 0x00) State.reset Block.crc = some 0xE1F0 := by decide

/-- R169's value for 'A', inside the window; PCNT counts it. -/
theorem test_wrPayData_inside :
    after (.wrPayData 0x41) (resetWith fun b => { b with fields := { b.fields with payload_len := 1 } }) (fun b => (b.crc, b.pcnt)) =
      some (0xB915, 1) := by decide

/-- R164: at the window's end the byte is counted and not folded. -/
theorem test_wrPayData_beyond :
    after (.wrPayData 0x43) (resetWith fun b => { b with pcnt := 2, fields := { b.fields with payload_len := 2 } })
      (fun b => (b.crc, b.pcnt)) = some (0xFFFF, 3) := by decide

/-- R165: HLEN 11 gives ERR 1 and leaves CRC. -/
theorem test_crcHdr_truncated : after .crcHdr (resetWith fun b => { b with hlen := 11 }) (fun b => (b.crc, b.err)) =
    some (0xFFFF, 1) := by decide

/-- R166: after PACK.Z, CRC_HDR and CRC_HDR.Z fold the same bytes. -/
theorem test_crcHdr_crcHdrZ_agree :
    after .crcHdr (resetWith fun b => { b with hdr := zeroChecksumImage knownHeader, hlen := 12 }) Block.crc =
      after .crcHdrZ knownHeaderState Block.crc := by decide +kernel

theorem test_crcHdrZ_keeps_hdr : after .crcHdrZ knownHeaderState (fun b => (b.hdr, b.err)) = some (knownHeader, 0) := by decide

theorem test_crcSet : after .crcSet (resetWith fun b => { b with crc := 0xF85B }) (fun b => b.fields.checksum) = some 0xF85B := by
  decide

/-! ### Control: the examples of R180 to R182 and R202 -/

/-- R180: a mismatch is no error. -/
theorem test_vcheck_mismatch :
    after .vcheck knownHeaderState (fun b => (b.err, b.vdone, b.valid, b.excess)) = some (0, true, false, false) := by decide

/-- R180: fewer bytes than declared. -/
theorem test_vcheck_truncated_frame :
    after .vcheck (resetWith fun b => { b with hlen := 12, pcnt := 27, fields := knownFields }) (fun b => (b.err, b.vdone)) =
      some (2, false) := by decide

/-- R181's example: ERR 4, then NOP. -/
theorem test_nop : after .nop (resetWith fun b => { b with err := 4, ftrunc := true }) (fun b => (b.err, b.ftrunc)) =
    some (0, true) := by decide

/-- R182's example: STATUS 0x180, then STAT_CLR. -/
theorem test_statClr : after .statClr (resetWith fun b => { b with ftrunc := true, hovf := true }) statusWord = some 0 := by decide

/-- R71: `PACK.Z` is `WR CMD, 0x00000011`. -/
theorem test_wrCmd_packZ : after (.wrCmd 0x00000011) knownFieldState (fun b => hdrWord2 b.hdr) = some 0x001C0000 := by decide

/-- R181, R202: 0x00000010 is ILLEGAL_COMMAND. -/
theorem test_wrCmd_illegal : after (.wrCmd 0x00000010) State.reset Block.err = some 4 := by decide

/-! ### The step and the table words -/

/-- A row's word placed with `withFetchWord` is what the next step runs. -/
theorem test_step_command : (nextOf (step (State.reset.withFetchWord 32 0x00000001))).map (fun t => t.block.hlen) = some 12 := by
  decide

theorem test_step_access : (nextOf (step (State.reset.withFetchWord 8 0x04))).map State.readData = some [0x00000000] := by decide

/-- Log 5: with nothing pending a step changes nothing. -/
theorem test_step_idle : nextOf (step State.reset) = some State.reset := by decide

/-! ### Witnesses: the premises of the statements, and their clauses at the boundaries -/

/-- CommandDecodeByFields: the lowest word of each way to be ILLEGAL, and the greatest legal words. -/
theorem witness_command_clauses :
    (decodeCommand 0x00000020).toOption = none ∧ (decodeCommand 0x00000009).toOption = none ∧
    (decodeCommand 0x00000012).toOption = none ∧ (decodeCommand 0x00000008).toOption = some .statClr ∧
    (decodeCommand 0x00000014).toOption = some .crcHdrZ := by decide

/-- StepRunsDecodedInstruction. -/
theorem witness_step_runs_decoded : decode (.access ⟨.write 5, 0x14, 32⟩) = .ok (.wrChannelCount 5) := by decide

/-- DecodeExactlyInvertsEncode: both sides hold of a pair, and neither of another. -/
theorem witness_decode_inverts :
    decode (.command 0x00000014) = .ok .crcHdrZ ∧ encode .crcHdrZ = .command 0x00000014 ∧
    decode (.command 0x00000004) ≠ .ok .crcHdrZ ∧ encode .crcHdrZ ≠ .command 0x00000004 := by decide

/-- BusChecksInOrder: an access of each clause, at its edge. -/
theorem witness_bus_clauses :
    decodeAccess ⟨.read, 0x00, 31⟩ = .error .width ∧ decodeAccess ⟨.read, 0x4F, 32⟩ = .error .misaligned ∧
    decodeAccess ⟨.write 0, 0x50, 32⟩ = .error .unmapped ∧ decodeAccess ⟨.read, 0x00, 32⟩ = .error .readOfWriteOnly ∧
    decodeAccess ⟨.read, 0x48, 32⟩ = .error .readOfWriteOnly ∧ decodeAccess ⟨.write 0, 0x4C, 32⟩ = .error .writeOfReadOnly ∧
    decodeAccess ⟨.read, 0x4C, 32⟩ = .ok .rdPcnt ∧ decodeAccess ⟨.write 0, 0x00, 32⟩ = .ok (.wrCmd 0) := by decide

/-- BusAddressReachesRegion: the region's last byte and the first byte after it. -/
theorem witness_bus_address :
    (Config.pBase ≤ Config.pBase + 0x7F ∧ Config.pBase + 0x7F < Config.pBase + 0x80) ∧
    ¬ (Config.pBase ≤ Config.pBase + 0x80 ∧ Config.pBase + 0x80 < Config.pBase + 0x80) := by simp

/-- R50 with a base of 0x80: the offsets at the region's two ends. -/
theorem witness_offset_from :
    offsetFrom 0x80 0x7F = none ∧ offsetFrom 0x80 0x80 = some 0 ∧ offsetFrom 0x80 0xFF = some 0x7F ∧ offsetFrom 0x80 0x100 = none := by
  decide

/-- BusCleanProgramsComplete. -/
theorem witness_bus_clean : busClean [issue .packZ, Reg.payData.wr 0x41, Reg.status.rd] = true := by decide

/-- EveryInstructionCompletes, ReadsHaveNoSideEffects: a read and an instruction that is none. -/
theorem witness_is_read : isRead .rdPcnt = true ∧ isRead .nop = false := by decide

/-- ReadsRevealWholeBlock: two different states whose reads agree. -/
theorem witness_reads_agree : ∀ i, isRead i = true → ∃ w : Word,
    exec i knownFieldState = .next { knownFieldState with readData := knownFieldState.readData ++ [w] } ∧
    exec i { knownFieldState with readData := [7] } = .next { knownFieldState with readData := [7] ++ [w] } := by
  intro i h
  cases i <;> first | exact ⟨_, rfl, rfl⟩ | cases h

/-- FieldWriteStoresLowBits, FieldReadsBackMasked: a word that fits a field and one that does not. -/
theorem witness_field_width : ¬ 2 ^ FieldName.version.width ≤ (0xF#32).toNat ∧ 2 ^ FieldName.version.width ≤ (0x10#32).toNat := by
  decide

/-- PackOfUnpackRoundTrips: its third clause's premises. -/
theorem witness_pack_of_unpack : knownHeaderState.block.hdr = knownHeader ∧ 12 ≤ knownHeaderState.block.hlen.toNat := by decide

/-- UnpackDecodesFullHeader, HdrDataAppendsOrDrops, CrcHdrFoldsFullHeader, CrcHdrZFoldsZeroImage: both sides of 12. -/
theorem witness_header_clauses :
    (resetWith fun b => { b with hlen := 11 }).block.hlen.toNat < 12 ∧ ¬ knownHeaderState.block.hlen.toNat < 12 := by decide

/-- HdrDataAppendsOrDrops: the last byte taken, the first dropped, and HLEN above 12, which no run reaches (log 6). -/
theorem witness_hdr_data_clauses :
    after (.wrHdrData 0xAA) (resetWith fun b => { b with hlen := 11 }) (fun b => (b.hdr[11], b.hlen, b.hovf)) = some (0xAA, 12, false) ∧
    after (.wrHdrData 0xAA) (resetWith fun b => { b with hlen := 12 }) (fun b => (b.hdr[11], b.hlen, b.hovf)) = some (0x00, 12, true) ∧
    after (.wrHdrData 0xAA) (resetWith fun b => { b with hlen := 15 }) (fun b => (b.hdr[11], b.hlen, b.hovf)) = some (0x00, 15, true) := by
  decide

/-- PayDataFoldsInsideWindow: the count below, at and above payload_len, and at its greatest value. -/
theorem witness_pay_data_clauses :
    after (.wrPayData 0x41) (resetWith fun b => { b with pcnt := 0xFFFFFFFF }) (fun b => (b.crc, b.pcnt)) =
      some (0xFFFF, 0xFFFFFFFF) ∧
    after (.wrPayData 0x41) (resetWith fun b => { b with pcnt := 0xFFFE, fields := { b.fields with payload_len := 0xFFFF } }) Block.pcnt =
      some 0xFFFF := by decide

/-- CrcIsAffine: two sequences of one length. -/
theorem witness_affine : [0x31#8, 0x32#8].length = [0x41#8, 0x42#8].length := by decide

/-- NeighbouringByteChangeDetected: a change of the second byte alone. -/
theorem witness_neighbouring : ((0x10#8, 0x33#8) : Byte × Byte) ≠ (0x10#8, 0x32#8) := by decide

/-- OddBitChangeDetected: three bits of two bytes changed. -/
theorem witness_odd_bits : [0x00#8, 0x00#8].length = [0x01#8, 0x81#8].length ∧
    differingBits [0x00#8, 0x00#8] [0x01#8, 0x81#8] % 2 = 1 := by decide

/-- VcheckReportsFrame: a state of each clause; P_REJECT_EXCESS has no value in Lean, so the two clauses that depend on it
are shown through `Block.verify` at each of its values. -/
theorem witness_vcheck_clauses :
    ((resetWith fun b => { b with hlen := 11 }).block.verify true).err = 1 ∧
    ((resetWith fun b => { b with hlen := 12, fields := { b.fields with payload_len := 1 } }).block.verify true).err = 2 ∧
    ((resetWith fun b => { b with hlen := 12, pcnt := 1, excess := false }).block.verify true).err = 3 ∧
    ((resetWith fun b => { b with hlen := 12, pcnt := 1, excess := false }).block.verify false).excess = true ∧
    ((resetWith fun b => { b with hlen := 12, fields := { b.fields with checksum := 0xFFFF } }).block.verify true).valid = true := by
  decide

/-- CmdWriteIssuesOrRecordsIllegal: a word of each kind. -/
theorem witness_cmd_write : commandWord .vcheck = 0x00000006 ∧ (decodeCommand 0x00000016).toOption = none := by decide

/-- ErrWrittenByCommandsOnly, StickyFlagsClearedByStatClrOnly: STAT_CLR itself and through CMD, and another command. -/
theorem witness_issued_command :
    issuedCommand .statClr = some .statClr ∧ issuedCommand (.wrCmd 8) = some .statClr ∧ issuedCommand .nop = some .nop ∧
    isCommand (.wrCmd 0x10) = true ∧ isCommand (.wrHdrData 0) = false := by decide

/-- StickyFlagsSetOnlyByTheirCauses: both flags can be set, by one write. -/
theorem witness_sticky_set : State.reset.block.ftrunc = false ∧ knownHeaderState.block.hovf = false ∧
    after (.wrHdrData 0x100) knownHeaderState (fun b => (b.ftrunc, b.hovf)) = some (true, true) := by decide

/-- StepKeepsBlockInvariant: a state that meets the invariant and whose step answers a next state. -/
theorem witness_step_invariant :
    ({ State.reset with pending := [.access (Reg.hdrData.wr 0x77)] } : State).Inv ∧
    step { State.reset with pending := [.access (Reg.hdrData.wr 0x77)] } =
      .next (resetWith fun b => { b with hdr := b.hdr.set 0 0x77, hlen := 1 }) := by
  refine ⟨⟨by decide, by decide, by decide, by decide, fun _ h => by cases h⟩, by rfl⟩

/-- AssembleBuildsFrame, AssembledFrameVerifies: the longest payload, and one byte more. -/
theorem witness_payload_length :
    (List.replicate 65535 0x00#8).length ≤ 65535 ∧ ¬ (List.replicate 65536 0x00#8).length ≤ 65535 := by
  rw [List.length_replicate, List.length_replicate]
  omega

/-- VerifyRejectsShortMessage: the empty message, and one of 11 bytes. -/
theorem witness_short_message : ([] : List Byte).length < 12 ∧ (knownHeader.toList.take 11).length < 12 := by decide

/-- VerifyReportsFullMessage: rests below, at and above the declared length of the known vector. -/
theorem witness_full_message :
    (List.replicate 27 0x00#8).length < (unpack12 knownHeader).payload_len.toNat ∧
    (List.replicate 28 0x00#8).length = (unpack12 knownHeader).payload_len.toNat ∧
    (unpack12 knownHeader).payload_len.toNat < (List.replicate 29 0x00#8).length := by decide

/-- TamperedByteIsNotValid: a frame with one payload byte; a header byte and the payload byte each changed. -/
theorem witness_tampered :
    let f : Fields := { knownFields with payload_len := 1 }
    [0x41#8].length = f.payload_len.toNat ∧ (0 < 12 + [0x41#8].length ∧ 0 ≠ 8 ∧ 0 ≠ 9) ∧
    ((pack12 f (frameChecksum f [0x41#8])).toList ++ [0x41#8])[0]? ≠ some 0x11#8 ∧
    (12 < 12 + [0x41#8].length ∧ 12 ≠ 8 ∧ 12 ≠ 9) ∧
    ((pack12 f (frameChecksum f [0x41#8])).toList ++ [0x41#8])[12]? ≠ some 0x40#8 := by decide +kernel

end Sys2Proof.Tests
end

section
/-! The state after reset and the STATUS word: O9. -/

namespace Sys2Proof.Machine

/-- R110: RD STATUS hands the host the STATUS word and changes nothing else. -/
theorem exec_rdStatus (s : State) :
    exec .rdStatus s = .next { s with readData := s.readData ++ [statusWord s.block] } := rfl

/-- R182: STAT_CLR's effect zeroes every field of STATUS, so the whole word is zero. -/
theorem statusWord_clearStatus (b : Block) : statusWord b.clearStatus = 0x00000000#32 := by
  simp only [statusWord, Block.clearStatus_err, Block.clearStatus_valid, Block.clearStatus_vdone,
    Block.clearStatus_excess, Block.clearStatus_ftrunc, Block.clearStatus_hovf]
  decide

/-- R38: the fields of STATUS are clear at reset already. -/
theorem clearStatus_reset : Block.reset.clearStatus = Block.reset := rfl

/-- R38: STATUS reads 0x00000000 after reset. -/
theorem statusWord_reset : statusWord Block.reset = 0x00000000#32 := by
  rw [← clearStatus_reset, statusWord_clearStatus]

/-- R38: HDR after reset is what HDR_CLR leaves. -/
theorem reset_hdr : Block.reset.hdr = Vector.replicate 12 0x00#8 := by decide

/-- R38, byte by byte. -/
theorem reset_hdr_getElem (i : Fin 12) : Block.reset.hdr[i] = 0x00#8 := by
  simp [reset_hdr]

/-- R38: RD STATUS right after reset hands the host the zero word and changes nothing else. -/
theorem exec_rdStatus_reset :
    exec .rdStatus State.reset = .next { State.reset with readData := State.reset.readData ++ [0x00000000#32] } := by
  have hword : statusWord State.reset.block = 0x00000000#32 := statusWord_reset
  rw [exec_rdStatus, hword]

/-- Settles O9: each element by its value in `Block.reset`, HDR byte by byte, and the STATUS word from its clear fields. -/
theorem resetValues : Obligations.ResetValues := by
  unfold Obligations.ResetValues
  exact ⟨rfl, reset_hdr_getElem, rfl, rfl, rfl, rfl, rfl, rfl, rfl, rfl, rfl, exec_rdStatus_reset⟩

end Sys2Proof.Machine
end

section
/-! The decoder of command words by the fields RSV, OP and Z: O2. -/

namespace Sys2Proof

/-- R71: RSV as a number. -/
theorem commandRsv_eq_zero_iff (w : Word) : commandRsv w = 0#27 ↔ w.toNat / 32 = 0 := by
  have hw : w.toNat < 2 ^ 32 := w.isLt
  rw [← BitVec.toNat_inj, commandRsv, BitVec.extractLsb'_toNat, Nat.shiftRight_eq_div_pow, BitVec.toNat_ofNat]
  omega

/-- R71: OP as a number. -/
theorem commandOp_toNat (w : Word) : (commandOp w).toNat = w.toNat % 16 := by
  simp [commandOp]

/-- R71: bit 4 of a word as a number. -/
theorem getLsbD_four_eq_true_iff (w : Word) : w.getLsbD 4 = true ↔ w.toNat / 16 % 2 = 1 := by
  rw [← BitVec.testBit_toNat, Nat.testBit_eq_decide_div_mod_eq, decide_eq_true_iff]

/-- R74: the decoder's comparison of OP with a code, on numbers. -/
theorem commandOp_eq_iff (w : Word) (op : BitVec 4) : commandOp w = op ↔ w.toNat % 16 = op.toNat := by
  rw [← BitVec.toNat_inj, commandOp_toNat]

/-- R71, WellFormed's test of RSV as a number. -/
theorem commandReservedOk_iff (w : Word) : commandReservedOk w = true ↔ w.toNat / 32 = 0 := by
  rw [commandReservedOk, beq_iff_eq, ← BitVec.toNat_inj, BitVec.toNat_ushiftRight, Nat.shiftRight_eq_div_pow,
    BitVec.toNat_ofNat, Nat.zero_mod]

/-- R74: the words that WellFormed's checks refuse, by RSV, OP and Z as numbers. -/
theorem commandWellFormed_eq_false_iff (w : Word) :
    commandWellFormed w = false ↔
      w.toNat / 32 ≠ 0 ∨ 8 < w.toNat % 16 ∨ (w.toNat / 16 % 2 = 1 ∧ w.toNat % 16 ≠ 1 ∧ w.toNat % 16 ≠ 4) := by
  simp only [← Bool.not_eq_true, commandWellFormed, commandOpOk, commandZeroOk, Bool.and_eq_true, Bool.or_eq_true,
    Bool.not_eq_true', ← Bool.not_eq_true (w.getLsbD 4), commandReservedOk_iff, getLsbD_four_eq_true_iff,
    decide_eq_true_eq, beq_iff_eq]
  omega

/-- R74: each way of being refused by the checks is one of the decoder's three tests. -/
theorem decodeCommand_error_of_not_wellFormed {w : Word} (h : commandWellFormed w = false) :
    ∃ cause, decodeCommand w = .error cause := by
  rw [commandWellFormed_eq_false_iff] at h
  by_cases hrsv : commandRsv w = 0#27
  · by_cases hop : 0x8#4 < commandOp w
    · exact ⟨.opRange, by simp [decodeCommand, hrsv, hop]⟩
    · have hz : commandZ w = true ∧ commandOp w ≠ 0x1#4 ∧ commandOp w ≠ 0x4#4 := by
        rw [commandRsv_eq_zero_iff] at hrsv
        rw [BitVec.lt_def, commandOp_toNat] at hop
        simp only [commandZ, getLsbD_four_eq_true_iff, ne_eq, commandOp_eq_iff]
        exact (h.resolve_left (not_not_intro hrsv)).resolve_left hop
      exact ⟨.zeroModifier, by simp [decodeCommand, hrsv, hop, hz]⟩
  · exact ⟨.reservedBits, by simp [decodeCommand, hrsv]⟩

/-- R72, R74: the decoder reads every command back from its word. -/
@[simp] theorem decodeCommand_commandWord (c : Command) : decodeCommand (commandWord c) = .ok c := by
  cases c <;> rfl

/-- R72: the table has a row for every combination of OP and Z that R74 lets through. -/
theorem exists_commandWord_toNat :
    ∀ n < 32, n % 16 ≤ 8 → (n / 16 % 2 = 1 → n % 16 = 1 ∨ n % 16 = 4) →
      ∃ c ∈ commandRows, (commandWord c).toNat = n := by decide

/-- R72, R74: every word that passes the checks is the word of a command. -/
theorem exists_commandWord_eq {w : Word} (h : commandWellFormed w = true) : ∃ c, commandWord c = w := by
  rw [← Bool.not_eq_false, commandWellFormed_eq_false_iff] at h
  obtain ⟨c, -, hc⟩ := exists_commandWord_toNat w.toNat (by omega) (by omega) (by omega)
  exact ⟨c, BitVec.eq_of_toNat_eq hc⟩

namespace Machine

/-- R71: the meaning of WR CMD. -/
theorem exec_wrCmd (w : Word) (s : State) : exec (.wrCmd w) s = execWrCmd w s := rfl

/-- R202: a write to CMD of a word that decodes to no command records ILLEGAL_COMMAND and changes nothing else. -/
theorem exec_wrCmd_of_error {w : Word} {cause : IllegalCause} (h : decodeCommand w = .error cause) (s : State) :
    exec (.wrCmd w) s = .next { s with block := { s.block with err := 4#3 } } := by
  rw [exec_wrCmd, execWrCmd, h]
  rfl

/-- Settles O2: a word that fails R74's checks makes the decoder answer an error, on which WR CMD records ILLEGAL_COMMAND;
any other word is a command's word itself, so its OP and Z are that command's. -/
theorem commandDecodeByFields : Obligations.CommandDecodeByFields := by
  intro w
  split
  next hillegal =>
    obtain ⟨cause, hcause⟩ :=
      decodeCommand_error_of_not_wellFormed ((commandWellFormed_eq_false_iff w).mpr hillegal)
    exact ⟨⟨cause, hcause⟩, exec_wrCmd_of_error hcause⟩
  next hlegal =>
    rw [← commandWellFormed_eq_false_iff, Bool.not_eq_false] at hlegal
    obtain ⟨c, rfl⟩ := exists_commandWord_eq hlegal
    exact ⟨c, decodeCommand_commandWord c, rfl, rfl⟩

end Machine

end Sys2Proof
end

section
/-! The packed header as one 96-bit value: O23. -/

namespace Sys2Proof.Machine

/-- R75: bits placed above `n` others count `2 ^ n` times. -/
theorem toNat_append_eq_mul_add {m n : Nat} (x : BitVec m) (y : BitVec n) :
    (x ++ y).toNat = x.toNat * 2 ^ n + y.toNat := by
  rw [BitVec.toNat_append, ← Nat.shiftLeft_add_eq_or_of_lt y.isLt, Nat.shiftLeft_eq]

/-- R75: byte `i` of the header counts `2 ^ (88 - 8 * i)` times in the 96-bit value. -/
theorem headerValue_toNat (h : Vector Byte 12) :
    (headerValue h).toNat =
      h[0].toNat * 2 ^ 88 + h[1].toNat * 2 ^ 80 + h[2].toNat * 2 ^ 72 + h[3].toNat * 2 ^ 64 + h[4].toNat * 2 ^ 56 +
        h[5].toNat * 2 ^ 48 + h[6].toNat * 2 ^ 40 + h[7].toNat * 2 ^ 32 + h[8].toNat * 2 ^ 24 + h[9].toNat * 2 ^ 16 +
        h[10].toNat * 2 ^ 8 + h[11].toNat := by
  refine (toNat_append_eq_mul_add _ _).trans ?_
  simp only [toNat_append_eq_mul_add]
  omega

/-- Settles O23: read as numbers, both sides are the sum of the fields at their places, once each field that crosses a byte
boundary is put together again from its quotients and remainders. -/
theorem packedHeaderLayout : Obligations.PackedHeaderLayout := by
  intro f cs
  apply BitVec.eq_of_toNat_eq
  refine Eq.trans ?_ (toNat_append_eq_mul_add _ _).symm
  simp only [headerValue_toNat, pack12, Vector.getElem_mk, List.getElem_toArray, List.getElem_cons_zero,
    List.getElem_cons_succ, toNat_append_eq_mul_add, BitVec.extractLsb'_toNat, Nat.shiftRight_eq_div_pow]
  omega

end Sys2Proof.Machine
end

section
/-! The nine field registers under one name each, and the STATUS word as a number: O14, O15, O18. -/

namespace Sys2Proof

/-- The bus decoder's answer is the decoder's. -/
theorem decode_access_of_ok {a : Access} {i : Instr} (h : decodeAccess a = .ok i) : decode (.access a) = .ok i := by
  rw [decode, h]

namespace Machine

/-- R51: the register of a field. -/
def FieldName.reg : FieldName → Reg
  | .version => .version
  | .audioType => .audioType
  | .sampleRate => .sampleRate
  | .channelCount => .channelCount
  | .frameFlag => .frameFlag
  | .frameSeq => .frameSeq
  | .timestamp => .timestamp
  | .payloadLen => .payloadLen
  | .checksum => .checksum

/-- R21: a field of a record, at its own width. -/
def Fields.get (f : Fields) : (n : FieldName) → BitVec n.width
  | .version => f.version
  | .audioType => f.audio_type
  | .sampleRate => f.sample_rate
  | .channelCount => f.channel_count
  | .frameFlag => f.frame_flag
  | .frameSeq => f.frame_seq
  | .timestamp => f.timestamp
  | .payloadLen => f.payload_len
  | .checksum => f.checksum

/-- R21: a record with one field set, the others kept. -/
def Fields.put (f : Fields) : (n : FieldName) → BitVec n.width → Fields
  | .version, v => { f with version := v }
  | .audioType, v => { f with audio_type := v }
  | .sampleRate, v => { f with sample_rate := v }
  | .channelCount, v => { f with channel_count := v }
  | .frameFlag, v => { f with frame_flag := v }
  | .frameSeq, v => { f with frame_seq := v }
  | .timestamp, v => { f with timestamp := v }
  | .payloadLen, v => { f with payload_len := v }
  | .checksum, v => { f with checksum := v }

/-- R51: the offsets of the field registers are those of the register table. -/
@[simp] theorem FieldName.reg_offset (n : FieldName) : n.reg.offset = n.offset := by cases n <;> rfl

/-- R21, R6: every field fits a data word. -/
theorem FieldName.width_le (n : FieldName) : n.width ≤ 32 := by cases n <;> decide

/-- A field's value as a number is that of its bits. -/
@[simp] theorem Fields.toNat_get (f : Fields) (n : FieldName) : (f.get n).toNat = f.valueOf n := by cases n <;> rfl

/-- Setting a field gives it the new value and keeps every other field's. -/
@[simp] theorem Fields.valueOf_put (f : Fields) (n : FieldName) (v : BitVec n.width) :
    (f.put n v).valueOf = Function.update f.valueOf n v.toNat := by
  funext m
  cases n <;> cases m <;> rfl

/-- R70: the 32-bit write at a field register's offset decodes to the field write. -/
theorem decode_fieldWrite (n : FieldName) (w : Word) :
    decode (.access ⟨.write w, n.offset, 32⟩) = .ok (n.writeInstr w) := by
  have hreg : decodeAccess (n.reg.wr w) = .ok (n.writeInstr w) := by
    rw [decodeAccess_wr]
    cases n <;> rfl
  rw [Reg.wr, FieldName.reg_offset] at hreg
  exact decode_access_of_ok hreg

/-- R70: the 32-bit read at a field register's offset decodes to the field read. -/
theorem decode_fieldRead (n : FieldName) : decode (.access ⟨.read, n.offset, 32⟩) = .ok n.readInstr := by
  have hreg : decodeAccess n.reg.rd = .ok n.readInstr := by
    rw [decodeAccess_rd]
    cases n <;> rfl
  rw [Reg.rd, FieldName.reg_offset] at hreg
  exact decode_access_of_ok hreg

/-- R101 to R109: each field write is the truncating write (R100) of its field. -/
theorem exec_writeInstr (n : FieldName) (w : Word) (s : State) :
    exec (n.writeInstr w) s = completeWrite (truncWrite n.width (fun f v => f.put n v) w) s := by
  cases n <;> rfl

/-- R111 to R119: each field read hands the host its field. -/
theorem exec_readInstr (n : FieldName) (s : State) :
    exec n.readInstr s = completeRead (readOperand (s.block.fields.get n)) s := by
  cases n <;> rfl

/-- R76, R100: whether a word loses a bit, as the test on numbers. -/
theorem lostBits_eq_decide (n : Nat) (w : Word) : lostBits n w = decide (2 ^ n ≤ w.toNat) := by
  rw [Bool.eq_iff_iff, lostBits_iff, decide_eq_true_iff]

/-- Settles O14: every field write is a truncating write of its field, so the field takes the word's low bits, FTRUNC the
lost-bit test, and nothing else is touched. -/
theorem fieldWriteStoresLowBits : Obligations.FieldWriteStoresLowBits := by
  intro n w s
  refine ⟨decode_fieldWrite n w, _, exec_writeInstr n w s, ?_, ?_, ?_, rfl, rfl, rfl⟩
  · rw [truncWrite_fields, Fields.valueOf_put, Function.update_self, writeOperand_toNat]
  · intro m hm
    rw [truncWrite_fields, Fields.valueOf_put, Function.update_of_ne hm]
  · rw [truncWrite_ftrunc, lostBits_eq_decide]

/-- Settles O15: every field read hands over its field, which fits the data word. -/
theorem fieldReadReturnsValue : Obligations.FieldReadReturnsValue := by
  intro n s
  refine ⟨decode_fieldRead n, _, exec_readInstr n s, ?_⟩
  rw [readOperand_toNat n.width_le, Fields.toNat_get]

/-- R110: STATUS as a number: each flag counts its bit's weight. -/
theorem statusWord_toNat (b : Block) :
    (statusWord b).toNat = b.err.toNat + 16 * b.valid.toNat + 32 * b.vdone.toNat + 64 * b.excess.toNat +
      128 * b.ftrunc.toNat + 256 * b.hovf.toNat := by
  rw [statusWord, readOperand_toNat (by decide)]
  simp only [toNat_append_eq_mul_add, BitVec.toNat_ofBool, BitVec.toNat_ofNat]
  omega

/-- Settles O18: RD STATUS hands over the STATUS word, whose bits are weighed one by one. -/
theorem statusReadReturnsLayout : Obligations.StatusReadReturnsLayout :=
  ⟨decode_access_of_ok (decodeAccess_rd .status), fun s => ⟨_, exec_rdStatus s, statusWord_toNat s.block⟩⟩

end Machine

end Sys2Proof
end

section
/-! The header codec's commands and its data port: O26, O27, O28, O29. -/

namespace Sys2Proof.Machine

/-- R71: a write to CMD of a command's word performs the command. -/
theorem exec_wrCmd_commandWord (c : Command) (s : State) : exec (.wrCmd (commandWord c)) s = exec c.instr s := by
  rw [exec_wrCmd, execWrCmd, decodeCommand_commandWord]
  cases c <;> rfl

/-- R142: PACK fills HDR from the field registers, the checksum register among them. -/
theorem exec_pack (s : State) :
    exec .pack s =
      .next { s with block := { s.block with
        hdr := pack12 s.block.fields s.block.fields.checksum, hlen := 12#4, err := 0#3 } } := rfl

/-- R143: PACK.Z fills HDR from the field registers, with zero for the checksum. -/
theorem exec_packZ (s : State) :
    exec .packZ s =
      .next { s with block := { s.block with
        hdr := pack12 s.block.fields 0x0000#16, hlen := 12#4, err := 0#3 } } := rfl

/-- Settles O26: both commands pack into HDR, and the packed bytes are the 96 bits of O23. -/
theorem packFillsHeader : Obligations.PackFillsHeader := by
  intro s
  exact ⟨exec_wrCmd_commandWord .pack s, exec_wrCmd_commandWord .packZ s,
    ⟨_, exec_pack s, packedHeaderLayout _ _, rfl⟩, ⟨_, exec_packZ s, packedHeaderLayout _ _, rfl⟩⟩

/-- R141, R148: packing what 12 bytes unpack to gives those bytes back. -/
theorem pack12_unpack12 (h : Vector Byte 12) : pack12 (unpack12 h) (unpack12 h).checksum = h := by
  refine Vector.ext fun i hi => BitVec.eq_of_toNat_eq ?_
  interval_cases i
  all_goals
    simp only [pack12, unpack12, Vector.getElem_mk, List.getElem_toArray, List.getElem_cons_zero,
      List.getElem_cons_succ, toNat_append_eq_mul_add, BitVec.extractLsb'_toNat, Nat.shiftRight_eq_div_pow]
    omega

/-- R203: the model's test for a short header, on the value of HLEN. -/
theorem Block.hlen_lt_twelve_iff (b : Block) : b.hlen < 12#4 ↔ b.hlen.toNat < 12 := BitVec.lt_def

/-- R145: UNPACK is a command on a full header, whose effect is to load the field registers from HDR. -/
theorem exec_unpack (s : State) :
    exec .unpack s =
      .next { s with block := s.block.withFullHeader fun b => { b with fields := unpack12 b.hdr } } := rfl

/-- R145, HLEN below 12: TRUNCATED_HEADER. -/
theorem exec_unpack_of_short {s : State} (h : s.block.hlen.toNat < 12) :
    exec .unpack s = .next { s with block := { s.block with err := 1#3 } } := by
  obtain ⟨-, heffect⟩ | ⟨hfull, -⟩ := s.block.withFullHeader_cases fun b => { b with fields := unpack12 b.hdr }
  · rw [exec_unpack, heffect]
    rfl
  · exact absurd (s.block.hlen_lt_twelve_iff.mpr h) hfull

/-- R145, HLEN not below 12: the field registers become what HDR unpacks to. -/
theorem exec_unpack_of_full {s : State} (h : ¬ s.block.hlen.toNat < 12) :
    exec .unpack s = .next { s with block := { s.block with fields := unpack12 s.block.hdr, err := 0#3 } } := by
  obtain ⟨hshort, -⟩ | ⟨-, heffect⟩ := s.block.withFullHeader_cases fun b => { b with fields := unpack12 b.hdr }
  · exact absurd (s.block.hlen_lt_twelve_iff.mp hshort) h
  · rw [exec_unpack, heffect]
    rfl

/-- Settles O27: on a full header the fields are those HDR unpacks to, and by O23 packing them again spells out the 96 bits
of HDR; on a short header only the code TRUNCATED_HEADER is recorded. -/
theorem unpackDecodesFullHeader : Obligations.UnpackDecodesFullHeader := by
  intro s
  refine ⟨exec_wrCmd_commandWord .unpack s, ?_⟩
  split
  next hshort => exact exec_unpack_of_short hshort
  next hfull =>
    refine ⟨unpack12 s.block.hdr, exec_unpack_of_full hfull, ?_⟩
    rw [← packedHeaderLayout, pack12_unpack12]

/-- R144: WR HDR_DATA records a lost bit in FTRUNC and takes the word's low byte into the header buffer. -/
theorem exec_wrHdrData (w : Word) (s : State) :
    exec (.wrHdrData w) s =
      .next { s with block := (s.block.flagTruncation 8 w).appendHeader (w.setWidth 8) } := rfl

/-- R144, the byte taken: HLEN is below 12. -/
theorem exec_wrHdrData_of_lt {s : State} (h : s.block.hlen.toNat < 12) (w : Word) :
    exec (.wrHdrData w) s =
      .next { s with block := { s.block with
        hdr := s.block.hdr.setIfInBounds s.block.hlen.toNat (w.setWidth 8), hlen := s.block.hlen + 1#4,
        ftrunc := s.block.ftrunc || lostBits 8 w } } := by
  have hroom : (s.block.flagTruncation 8 w).hlen < 12#4 := s.block.hlen_lt_twelve_iff.mpr h
  rw [exec_wrHdrData, Block.appendHeader_of_lt hroom]
  rfl

/-- R144, the byte dropped: HLEN is not below 12. -/
theorem exec_wrHdrData_of_not_lt {s : State} (h : ¬ s.block.hlen.toNat < 12) (w : Word) :
    exec (.wrHdrData w) s =
      .next { s with block := { s.block with ftrunc := s.block.ftrunc || lostBits 8 w, hovf := true } } := by
  have hfull : ¬ (s.block.flagTruncation 8 w).hlen < 12#4 := mt s.block.hlen_lt_twelve_iff.mp h
  rw [exec_wrHdrData, Block.appendHeader_of_not_lt hfull]
  rfl

/-- R24: HLEN counts one more byte without wrapping where it is below 12. -/
theorem Block.hlen_add_one_toNat {b : Block} (h : b.hlen.toNat < 12) : (b.hlen + 1#4).toNat = b.hlen.toNat + 1 := by
  rw [BitVec.toNat_add, BitVec.toNat_ofNat]
  omega

/-- Settles O28: the low byte is appended at index HLEN where HLEN is below 12, and otherwise dropped with HOVF set. -/
theorem hdrDataAppendsOrDrops : Obligations.HdrDataAppendsOrDrops := by
  intro w s
  refine ⟨decode_access_of_ok (decodeAccess_wr .hdrData w), ?_⟩
  rw [← lostBits_eq_decide]
  by_cases hroom : s.block.hlen.toNat < 12
  · refine ⟨_, exec_wrHdrData_of_lt hroom w, rfl, ?_, rfl⟩
    rw [if_pos hroom]
    refine ⟨Block.hlen_add_one_toNat hroom, rfl, fun i => ?_⟩
    simp only [Fin.getElem_fin, Vector.getElem_setIfInBounds, eq_comm (a := i.val)]
  · refine ⟨_, exec_wrHdrData_of_not_lt hroom w, rfl, ?_, rfl⟩
    rw [if_neg hroom]
    exact ⟨rfl, rfl, rfl⟩

/-- R146: HDR_CLR zeroes HDR, HLEN and ERR. -/
theorem exec_hdrClr (s : State) :
    exec .hdrClr s =
      .next { s with block := { s.block with hdr := Vector.replicate 12 0x00#8, hlen := 0#4, err := 0#3 } } := rfl

/-- Settles O29: HDR becomes 12 zero bytes, HLEN and ERR 0, and the rest is kept. -/
theorem hdrClrEmptiesBuffer : Obligations.HdrClrEmptiesBuffer := by
  intro s
  refine ⟨exec_wrCmd_commandWord .hdrClr s, _, exec_hdrClr s, fun i => ?_, rfl⟩
  rw [Fin.getElem_fin, Vector.getElem_replicate]

end Sys2Proof.Machine
end

section
/-! The checksum engine's function, commands and data ports: O31, O33, O34, O35, O37, O38, O39. -/

namespace Sys2Proof.Machine

/-- R160: one shift of the register, its test on bit 15. -/
theorem crcShift_eq (c : BitVec 16) :
    crcShift c = if c.getLsbD 15 = true then (c <<< 1) ^^^ 0x1021#16 else c <<< 1 := by
  rw [crcShift, BitVec.msb_eq_getLsbD_last, Config.crcPoly]

/-- R160: `n` shifts are the `n`-th iterate of one. -/
theorem crcShifts_eq_iterate (n : Nat) (c : BitVec 16) : crcShifts n c = crcShift^[n] c := by
  induction n generalizing c with
  | zero => rfl
  | succ n ih => rw [crcShifts, ih, Function.iterate_succ_apply]

/-- Settles O31: the model's recursion over the number of shifts is iteration, and its shift is the one written out. -/
theorem crcStepFollowsAlgorithm : Obligations.CrcStepFollowsAlgorithm := by
  intro c b
  rw [crcStep, crcShifts_eq_iterate, funext crcShift_eq]

/-- R162: CRC_INIT starts the checksum and the payload count, and clears the verification flags and ERR. -/
theorem exec_crcInit (s : State) :
    exec .crcInit s =
      .next { s with block := { s.block with
        crc := 0xFFFF#16, pcnt := 0#32, valid := false, vdone := false, excess := false, err := 0#3 } } := rfl

/-- Settles O33: CRC_INIT writes constants only, so on the state it leaves it writes what stands there. -/
theorem crcInitStartsChecksum : Obligations.CrcInitStartsChecksum := by
  intro s
  exact ⟨exec_wrCmd_commandWord .crcInit s, _, exec_crcInit s, exec_crcInit _, rfl⟩

/-- R163: WR CRC_DATA folds the word's low byte into CRC and records a lost bit in FTRUNC. -/
theorem exec_wrCrcData (w : Word) (s : State) :
    exec (.wrCrcData w) s =
      .next { s with block := { s.block with
        crc := crc16 [w.setWidth 8] s.block.crc, ftrunc := s.block.ftrunc || lostBits 8 w } } := rfl

/-- Settles O34: the offset decodes to WR CRC_DATA, whose test for a lost bit is the one on numbers. -/
theorem crcDataFoldsOneByte : Obligations.CrcDataFoldsOneByte := by
  intro w s
  refine ⟨decode_access_of_ok (decodeAccess_wr .crcData w), ?_⟩
  rw [exec_wrCrcData, lostBits_eq_decide]

/-- R164: WR PAY_DATA folds the word's low byte inside the payload window, counts it and records a lost bit in FTRUNC. -/
theorem exec_wrPayData (w : Word) (s : State) :
    exec (.wrPayData w) s =
      .next { s with block := { s.block with
        crc := if s.block.inPayloadWindow then crcStep s.block.crc (w.setWidth 8) else s.block.crc,
        pcnt := saturatingIncrement s.block.pcnt, ftrunc := s.block.ftrunc || lostBits 8 w } } := rfl

/-- Settles O35: the window is the comparison of PCNT before the count with payload_len, and the count saturates. -/
theorem payDataFoldsInsideWindow : Obligations.PayDataFoldsInsideWindow := by
  intro w s
  refine ⟨decode_access_of_ok (decodeAccess_wr .payData w), _, exec_wrPayData w s, ?_,
    saturatingIncrement_toNat s.block.pcnt, ?_⟩
  · simp only [Block.inPayloadWindow_iff]
  · rw [← lostBits_eq_decide]

/-- R203: a command on a full header, where HLEN is below 12: TRUNCATED_HEADER. -/
theorem Block.withFullHeader_of_short {b : Block} (h : b.hlen.toNat < 12) (effect : Block → Block) :
    b.withFullHeader effect = { b with err := 1#3 } := by
  obtain ⟨-, heffect⟩ | ⟨hfull, -⟩ := b.withFullHeader_cases effect
  · exact heffect
  · exact absurd (b.hlen_lt_twelve_iff.mpr h) hfull

/-- R165, R166: a command on a full header, where HLEN is not below 12: its effect, and ERR NONE. -/
theorem Block.withFullHeader_of_full {b : Block} (h : ¬ b.hlen.toNat < 12) (effect : Block → Block) :
    b.withFullHeader effect = (effect b).result errNone := by
  obtain ⟨hshort, -⟩ | ⟨-, heffect⟩ := b.withFullHeader_cases effect
  · exact absurd (b.hlen_lt_twelve_iff.mp hshort) h
  · exact heffect

/-- R165: CRC_HDR is a command on a full header, whose effect is to fold HDR into CRC. -/
theorem exec_crcHdr (s : State) :
    exec .crcHdr s =
      .next { s with block := s.block.withFullHeader fun b => b.foldCrc b.hdr.toList } := rfl

/-- Settles O37: by the two outcomes of a command on a full header. -/
theorem crcHdrFoldsFullHeader : Obligations.CrcHdrFoldsFullHeader := by
  intro s
  refine ⟨exec_wrCmd_commandWord .crcHdr s, ?_⟩
  rw [exec_crcHdr]
  split
  next hshort => rw [Block.withFullHeader_of_short hshort]
  next hfull =>
    rw [Block.withFullHeader_of_full hfull]
    rfl

/-- R166: CRC_HDR.Z is a command on a full header, whose effect is to fold bytes 0 to 9 of HDR and two zero bytes into CRC. -/
theorem exec_crcHdrZ (s : State) :
    exec .crcHdrZ s =
      .next { s with
        block := s.block.withFullHeader fun b => b.foldCrc (b.hdr.toList.take 10 ++ [0x00#8, 0x00#8]) } := rfl

/-- R140, R11: packing with a zero checksum differs from packing with any other only in bytes 10 and 11, which are zero. -/
theorem pack12_zero_toList (f : Fields) (cs : BitVec 16) :
    (pack12 f 0x0000#16).toList = (pack12 f cs).toList.take 10 ++ [0x00#8, 0x00#8] := rfl

/-- R148: what 12 header bytes unpack to packs, with a zero checksum, to their zero-checksum image. -/
theorem pack12_unpack12_zero_toList (h : Vector Byte 12) :
    (pack12 (unpack12 h) 0x0000#16).toList = h.toList.take 10 ++ [0x00#8, 0x00#8] := by
  rw [pack12_zero_toList _ (unpack12 h).checksum, pack12_unpack12]

/-- Settles O38: by the two outcomes of a command on a full header; the bytes folded are what HDR's fields pack to with a zero
checksum. -/
theorem crcHdrZFoldsZeroImage : Obligations.CrcHdrZFoldsZeroImage := by
  intro s
  refine ⟨exec_wrCmd_commandWord .crcHdrZ s, ?_⟩
  rw [exec_crcHdrZ, pack12_unpack12_zero_toList]
  split
  next hshort => rw [Block.withFullHeader_of_short hshort]
  next hfull =>
    rw [Block.withFullHeader_of_full hfull]
    exact ⟨rfl, rfl⟩

/-- R167: CRC_SET puts CRC into the checksum register. -/
theorem exec_crcSet (s : State) :
    exec .crcSet s =
      .next { s with block := { s.block with
        fields := { s.block.fields with checksum := s.block.crc }, err := 0#3 } } := rfl

/-- R21: setting the checksum register gives it the new value and keeps every other field's. -/
theorem Fields.valueOf_set_checksum (f : Fields) (v : BitVec 16) :
    ({ f with checksum := v } : Fields).valueOf = Function.update f.valueOf .checksum v.toNat :=
  f.valueOf_put .checksum v

/-- Settles O39: setting the checksum register gives it CRC's value and keeps the other eight fields. -/
theorem crcSetCopiesChecksum : Obligations.CrcSetCopiesChecksum := by
  intro s
  refine ⟨exec_wrCmd_commandWord .crcSet s, _, exec_crcSet s, ?_, fun n hn => ?_, rfl⟩
  · rw [Fields.valueOf_set_checksum, Function.update_self]
  · rw [Fields.valueOf_set_checksum, Function.update_of_ne hn]

end Sys2Proof.Machine
end

section
/-! VCHECK and the procedure CHECKSUM: O43, O53. -/

namespace Sys2Proof.Machine

/-- R180: the four paths of VCHECK, in the order of its checks and with each check on the values of the registers. -/
theorem Block.verify_eq (rejectExcess : Bool) (b : Block) :
    b.verify rejectExcess =
      if b.hlen.toNat < 12 then b.failCheck 1#3 false
      else if b.pcnt.toNat < b.fields.payload_len.toNat then b.failCheck 2#3 false
      else if b.fields.payload_len.toNat < b.pcnt.toNat ∧ rejectExcess = true then b.failCheck 3#3 true
      else
        { b with
          excess := decide (b.fields.payload_len.toNat < b.pcnt.toNat),
          valid := b.crc == b.fields.checksum,
          vdone := true,
          err := 0#3 } := by
  have hlen : (b.fields.payload_len.setWidth 32).toNat = b.fields.payload_len.toNat :=
    readOperand_toNat (by decide) b.fields.payload_len
  simp only [Block.verify, Block.headerShort, decide_eq_true_eq, BitVec.lt_def, hlen]
  rfl

/-- R180: ERR, VALID, VDONE and EXCESS are all that VCHECK writes. -/
theorem Block.verify_frame (rejectExcess : Bool) (b : Block) :
    b.verify rejectExcess =
      { b with
        err := (b.verify rejectExcess).err, valid := (b.verify rejectExcess).valid,
        vdone := (b.verify rejectExcess).vdone, excess := (b.verify rejectExcess).excess } := by
  obtain ⟨-, h⟩ | ⟨-, -, h⟩ | ⟨-, -, -, h⟩ | ⟨-, -, -, h⟩ := b.verify_cases rejectExcess <;> rw [h] <;> rfl

/-- R180: VCHECK reads none of the four elements it writes. -/
theorem Block.verify_of_report (rejectExcess : Bool) (b : Block) (err : BitVec 3) (valid vdone excess : Bool) :
    Block.verify rejectExcess { b with err := err, valid := valid, vdone := vdone, excess := excess } =
      b.verify rejectExcess := rfl

/-- R180: a second VCHECK finds what the first one found. -/
theorem Block.verify_verify (rejectExcess : Bool) (b : Block) :
    (b.verify rejectExcess).verify rejectExcess = b.verify rejectExcess :=
  (congrArg (Block.verify rejectExcess) (b.verify_frame rejectExcess)).trans
    (b.verify_of_report rejectExcess _ _ _ _)

/-- R180: VCHECK checks the frame under the value of P_REJECT_EXCESS. -/
theorem exec_vcheck (s : State) : exec .vcheck s = .next { s with block := s.block.verify Config.rejectExcess } := rfl

/-- Settles O43: the four paths of VCHECK write the four elements, which VCHECK does not read, so it may be repeated. -/
theorem vcheckReportsFrame : Obligations.VcheckReportsFrame := by
  intro s
  have hagain : exec .vcheck { s with block := s.block.verify Config.rejectExcess } =
      .next { s with block := s.block.verify Config.rejectExcess } := by
    rw [exec_vcheck, Block.verify_verify]
  refine ⟨exec_wrCmd_commandWord .vcheck s, _, exec_vcheck s, hagain, ?_,
    congrArg (fun b => { s with block := b }) (s.block.verify_frame Config.rejectExcess)⟩
  rw [Block.verify_eq]
  split_ifs with hshort htruncated hexcess
  · exact ⟨rfl, rfl, rfl, rfl⟩
  · exact ⟨rfl, rfl, rfl, rfl⟩
  · exact ⟨rfl, rfl, rfl, rfl⟩
  · exact ⟨rfl, rfl, beq_iff_eq, decide_eq_true_iff⟩

/-- R61: the first access of a sequence completes, and the others follow it. -/
theorem performAll_cons_of_next {a : Access} {s t : State} (h : performAccess a s = .next t) (rest : List Access) :
    performAll (a :: rest) s = performAll rest t := by
  rw [performAll, h]

/-- R61: the first part of a sequence completes, and the second follows it. -/
theorem performAll_append_of_next {as : List Access} {s t : State} (h : performAll as s = .next t) (bs : List Access) :
    performAll (as ++ bs) s = performAll bs t := by
  rw [performAll_append, h]

/-- R76: a value written to a target of its own width loses no bit. -/
theorem lostBits_readOperand {n : Nat} (h : n ≤ 32) (v : BitVec n) : lostBits n (readOperand v) = false := by
  rw [lostBits_eq_decide, readOperand_toNat h]
  exact decide_eq_false (Nat.not_le.mpr v.isLt)

/-- R80, R163: one write of FEED_CRC folds its byte into CRC and changes nothing else. -/
theorem performAccess_crcData (x : Byte) (s : State) :
    performAccess (Reg.crcData.wr (readOperand x)) s = .next { s with block := s.block.foldCrc [x] } := by
  have hbyte : (readOperand x).setWidth 8 = x := writeOperand_readOperand (by decide) x
  calc performAccess (Reg.crcData.wr (readOperand x)) s
      = exec (.wrCrcData (readOperand x)) s := by rw [performAccess, decodeAccess_wr]
    _ = .next { s with block := s.block.foldCrc [x] } := by
      rw [exec_wrCrcData, hbyte, lostBits_readOperand (by decide), Bool.or_false, Block.foldCrc]

/-- R80, R161: FEED_CRC of any bytes folds them into CRC, first byte first, and changes nothing else. -/
theorem performAll_feedCrc (bytes : List Byte) (s : State) :
    performAll (feedCrc bytes) s = .next { s with block := s.block.foldCrc bytes } := by
  induction bytes generalizing s with
  | nil => rfl
  | cons x rest ih =>
    calc performAll (feedCrc (x :: rest)) s
        = performAll (feedCrc rest) { s with block := s.block.foldCrc [x] } :=
          performAll_cons_of_next (performAccess_crcData x s) _
      _ = .next { s with block := (s.block.foldCrc [x]).foldCrc rest } := ih _
      _ = .next { s with block := s.block.foldCrc (x :: rest) } := rfl

/-- R124: RD CRC hands the host the checksum register and changes nothing else. -/
theorem performAccess_rdCrc (s : State) :
    performAccess Reg.crc.rd s = .next { s with readData := s.readData ++ [s.block.crc.setWidth 32] } := by
  rw [performAccess, decodeAccess_rd]
  rfl

/-- Settles O53: CRC_INIT sets CRC to 0xFFFF from any state, the bytes are folded into it, and it is read back. -/
theorem checksumProcedureResult : Obligations.ChecksumProcedureResult := by
  intro bytes s
  rw [checksumAccesses, List.cons_append, performAll_cons_of_next ((performAccess_issue .crcInit s).trans (exec_crcInit s)),
    performAll_append_of_next (performAll_feedCrc bytes _), performAll_cons_of_next (performAccess_rdCrc _)]
  rfl

end Sys2Proof.Machine
end

section
/-! The decoder against the encoder, and the step as the run of the decoded instruction: O1, O3, O4, O5, O6. -/

namespace Sys2Proof

/-- R74: the decoder answers a command for that command's word alone. -/
theorem decodeCommand_eq_ok_iff {w : Word} {c : Command} : decodeCommand w = .ok c ↔ commandWord c = w := by
  refine ⟨fun h => ?_, fun h => h ▸ decodeCommand_commandWord c⟩
  cases hwf : commandWellFormed w with
  | false =>
    obtain ⟨cause, hcause⟩ := decodeCommand_error_of_not_wellFormed hwf
    rw [hcause] at h
    cases h
  | true =>
    obtain ⟨d, rfl⟩ := exists_commandWord_eq hwf
    rw [decodeCommand_commandWord] at h
    cases h
    rfl

/-- R72: a command is encoded as its word. -/
theorem encode_instr (c : Command) : encode c.instr = .command (commandWord c) := by
  cases c <;> rfl

/-- R51: every word offset of the window has its register. -/
theorem exists_reg_offset : ∀ n < 0x50, n % 4 = 0 → ∃ r : Reg, r.offset = n := by
  intro n hn h4
  obtain ⟨k, rfl⟩ := Nat.dvd_of_mod_eq_zero h4
  have hk : k < 20 := by omega
  interval_cases k
  exacts [⟨.cmd, rfl⟩, ⟨.status, rfl⟩, ⟨.version, rfl⟩, ⟨.audioType, rfl⟩, ⟨.sampleRate, rfl⟩, ⟨.channelCount, rfl⟩,
    ⟨.frameFlag, rfl⟩, ⟨.frameSeq, rfl⟩, ⟨.timestamp, rfl⟩, ⟨.payloadLen, rfl⟩, ⟨.checksum, rfl⟩, ⟨.hdrW0, rfl⟩,
    ⟨.hdrW1, rfl⟩, ⟨.hdrW2, rfl⟩, ⟨.hdrData, rfl⟩, ⟨.hlen, rfl⟩, ⟨.crc, rfl⟩, ⟨.crcData, rfl⟩, ⟨.payData, rfl⟩,
    ⟨.pcnt, rfl⟩]

/-- R56: an access that passes the checks of width, alignment and range is the read or a write of a register. -/
theorem Access.eq_rd_or_wr {a : Access} (hsize : a.size = 32) (halign : a.offset % 4 = 0) (hrange : a.offset < 0x50) :
    ∃ r : Reg, a = r.rd ∨ ∃ w, a = r.wr w := by
  obtain ⟨kind, offset, size⟩ := a
  obtain ⟨r, rfl⟩ := exists_reg_offset offset hrange halign
  subst hsize
  cases kind with
  | read => exact ⟨r, .inl rfl⟩
  | write w => exact ⟨r, .inr ⟨w, rfl⟩⟩

/-- R70, R208 level 1: what the decoder has checked of an access it accepts. -/
theorem decodeAccess_ok_checks {a : Access} {i : Instr} (h : decodeAccess a = .ok i) :
    a.size = 32 ∧ a.offset % 4 = 0 ∧ a.offset < 0x50 := by
  unfold decodeAccess at h
  split_ifs at h with hsize halign hrange
  exact ⟨not_not.mp hsize, not_not.mp halign, not_le.mp hrange⟩

/-- R70: an instruction that a read of a register decodes to is encoded as that read. -/
theorem encode_of_decodeAccess_rd {r : Reg} {i : Instr} (h : decodeAccess r.rd = .ok i) : encode i = .access r.rd := by
  rw [decodeAccess_rd] at h
  cases r <;> cases h <;> rfl

/-- R70: an instruction that a write of a register decodes to is encoded as that write. -/
theorem encode_of_decodeAccess_wr {r : Reg} {w : Word} {i : Instr} (h : decodeAccess (r.wr w) = .ok i) :
    encode i = .access (r.wr w) := by
  rw [decodeAccess_wr] at h
  cases r <;> cases h <;> rfl

/-- R70: the instruction of an accepted access is encoded as that access. -/
theorem encode_of_decodeAccess {a : Access} {i : Instr} (h : decodeAccess a = .ok i) : encode i = .access a := by
  obtain ⟨hsize, halign, hrange⟩ := decodeAccess_ok_checks h
  obtain ⟨r, rfl | ⟨w, rfl⟩⟩ := Access.eq_rd_or_wr hsize halign hrange
  · exact encode_of_decodeAccess_rd h
  · exact encode_of_decodeAccess_wr h

/-- The bus decoder's answer read off the decoder's. -/
theorem decodeAccess_of_decode {a : Access} {i : Instr} (h : decode (.access a) = .ok i) : decodeAccess a = .ok i := by
  rw [decode] at h
  cases ha : decodeAccess a with
  | ok j =>
    rw [ha] at h
    cases h
    rfl
  | error cause =>
    rw [ha] at h
    cases h

/-- The command that a decoded command word carries. -/
theorem exists_command_of_decode {w : Word} {i : Instr} (h : decode (.command w) = .ok i) :
    ∃ c : Command, c.instr = i ∧ commandWord c = w := by
  rw [decode] at h
  cases hw : decodeCommand w with
  | ok c =>
    rw [hw] at h
    cases h
    exact ⟨c, rfl, decodeCommand_eq_ok_iff.mp hw⟩
  | error cause =>
    rw [hw] at h
    cases h

/-- R70, R72: the decoder reads every instruction back from its encoding. -/
theorem decode_encode (i : Instr) : decode (encode i) = .ok i := by
  cases i <;> simp only [encode, decode, decodeAccess_wr, decodeAccess_rd, decodeCommand_commandWord, Command.instr]

/-- R70, R74: what the decoder accepts is the encoding of its answer. -/
theorem encode_of_decode {e : Encoded} {i : Instr} (h : decode e = .ok i) : encode i = e := by
  cases e with
  | access a => exact encode_of_decodeAccess (decodeAccess_of_decode h)
  | command w =>
    obtain ⟨c, rfl, rfl⟩ := exists_command_of_decode h
    exact encode_instr c

/-- Settles O1: the decoder inverts the encoder on every instruction, and what it accepts is a register's access or a
command's word, each the encoding of the answer. -/
theorem decodeExactlyInvertsEncode : Obligations.DecodeExactlyInvertsEncode :=
  fun _ i => ⟨encode_of_decode, fun h => h ▸ decode_encode i⟩

/-- R72: a command's word decodes to its instruction. -/
theorem decode_commandWord (c : Command) : decode (.command (commandWord c)) = .ok c.instr := by
  rw [← encode_instr, decode_encode]

/-- Settles O3: the 11 words of the map are the words of the 11 commands. -/
theorem commandWordsOfTheMap : Obligations.CommandWordsOfTheMap :=
  ⟨decode_commandWord .nop, decode_commandWord .pack, decode_commandWord .packZ, decode_commandWord .unpack,
    decode_commandWord .crcInit, decode_commandWord .crcHdr, decode_commandWord .crcHdrZ, decode_commandWord .crcSet,
    decode_commandWord .vcheck, decode_commandWord .hdrClr, decode_commandWord .statClr⟩

/-- Settles O4: each access is the encoding of its instruction. -/
theorem accessesOfTheRegisterMap : Obligations.AccessesOfTheRegisterMap :=
  ⟨decode_encode (.wrCmd 0x11), decode_encode (.wrVersion 0x1F), decode_encode (.wrHdrData 0x77),
    decode_encode (.wrPayData 0x41), decode_encode .rdStatus, decode_encode .rdHdrW2, decode_encode .rdPcnt⟩

namespace Machine

/-- R70: an accepted access runs its instruction. -/
theorem performAccess_of_ok {a : Access} {i : Instr} (h : decodeAccess a = .ok i) (s : State) :
    performAccess a s = exec i s := by
  rw [performAccess, h]

/-- R61: the step takes the host's next access and performs it. -/
theorem step_access (a : Access) (rest : List HostEvent) (s : State) :
    step { s with pending := .access a :: rest } = performAccess a { s with pending := rest } := rfl

/-- Settles O5: the step performs the access, which is the run of the instruction it decodes to. -/
theorem stepRunsDecodedInstruction : Obligations.StepRunsDecodedInstruction := by
  intro a i rest s h
  rw [step_access, performAccess_of_ok (decodeAccess_of_decode h)]

/-- R71, R79: the access that issues an encoded instruction runs the instruction: an encoded access decodes to it, and a
command word goes out as the issue of its command. -/
theorem performAccess_encode (i : Instr) (s : State) : performAccess (encode i).toAccess s = exec i s := by
  have hi := decode_encode i
  cases he : encode i with
  | access a => exact performAccess_of_ok (decodeAccess_of_decode (he ▸ hi)) s
  | command w =>
    obtain ⟨c, rfl, rfl⟩ := exists_command_of_decode (he ▸ hi)
    exact performAccess_issue c s

/-- Settles O6: the step performs the access that issues the instruction. -/
theorem stepRunsEncodedInstruction : Obligations.StepRunsEncodedInstruction := by
  intro i rest s
  rw [step_access, performAccess_encode]

end Machine

end Sys2Proof
end

section
/-! What each instruction does, said once: a command's effect on the block, the word a read returns, and the split of the
instructions into those that issue a command, illegal writes to CMD, field writes, data port writes and reads. -/

namespace Sys2Proof.Machine

/-- R72: the effect of a command on the block (R142 to R182). -/
def commandEffect : Command → Block → Block
  | .nop => Block.result errNone
  | .pack => fun b => (b.packHeader b.fields.checksum).result errNone
  | .packZ => fun b => (b.packHeader 0x0000#16).result errNone
  | .unpack => Block.withFullHeader fun b => { b with fields := unpack12 b.hdr }
  | .crcInit => fun b =>
      { b with crc := 0xFFFF#16, pcnt := 0#32, valid := false, vdone := false, excess := false, err := errNone }
  | .crcHdr => Block.withFullHeader fun b => b.foldCrc b.hdr.toList
  | .crcHdrZ => Block.withFullHeader fun b => b.foldCrc (b.hdr.toList.take 10 ++ [0x00#8, 0x00#8])
  | .crcSet => fun b => { b with fields := { b.fields with checksum := b.crc }, err := errNone }
  | .vcheck => Block.verify Config.rejectExcess
  | .hdrClr => fun b => { b with hdr := Vector.replicate 12 0x00#8, hlen := 0#4, err := errNone }
  | .statClr => Block.clearStatus

/-- R58, R71: a command performs its effect. -/
theorem exec_instr (c : Command) (s : State) : exec c.instr s = completeWrite (commandEffect c) s := by
  cases c <;> rfl

/-- R71: the instructions that issue a command are its row and the write of its word to CMD. -/
theorem eq_of_issuedCommand {i : Instr} {c : Command} (h : issuedCommand i = some c) :
    i = c.instr ∨ i = .wrCmd (commandWord c) := by
  cases i
  case wrCmd w =>
    cases hw : decodeCommand w with
    | ok d =>
      rw [issuedCommand, hw] at h
      cases h
      rw [decodeCommand_eq_ok_iff.mp hw]
      exact .inr rfl
    | error cause =>
      rw [issuedCommand, hw] at h
      cases h
  all_goals cases h <;> exact .inl rfl

/-- R58, R71: an instruction that issues a command performs the command's effect. -/
theorem exec_of_issuedCommand {i : Instr} {c : Command} (h : issuedCommand i = some c) (s : State) :
    exec i s = completeWrite (commandEffect c) s := by
  obtain rfl | rfl := eq_of_issuedCommand h
  · exact exec_instr c s
  · rw [exec_wrCmd_commandWord, exec_instr]

/-- R28, R71: an instruction that issues a command is a command. -/
theorem isCommand_of_issuedCommand {i : Instr} {c : Command} (h : issuedCommand i = some c) : isCommand i = true := by
  obtain rfl | rfl := eq_of_issuedCommand h
  · cases c <;> rfl
  · rfl

/-- R110 to R125: the word that a read hands to the host; for an instruction that is no read, a word that nothing uses. -/
def readWord : Instr → Block → Word
  | .rdStatus, b => statusWord b
  | .rdVersion, b => readOperand b.fields.version
  | .rdAudioType, b => readOperand b.fields.audio_type
  | .rdSampleRate, b => readOperand b.fields.sample_rate
  | .rdChannelCount, b => readOperand b.fields.channel_count
  | .rdFrameFlag, b => readOperand b.fields.frame_flag
  | .rdFrameSeq, b => readOperand b.fields.frame_seq
  | .rdTimestamp, b => readOperand b.fields.timestamp
  | .rdPayloadLen, b => readOperand b.fields.payload_len
  | .rdChecksum, b => readOperand b.fields.checksum
  | .rdHdrW0, b => hdrWord0 b.hdr
  | .rdHdrW1, b => hdrWord1 b.hdr
  | .rdHdrW2, b => hdrWord2 b.hdr
  | .rdHlen, b => readOperand b.hlen
  | .rdCrc, b => readOperand b.crc
  | .rdPcnt, b => readOperand b.pcnt
  | _, _ => 0#32

/-- R57: a read hands its word to the host and does nothing else. -/
theorem exec_of_isRead {i : Instr} (h : isRead i = true) (s : State) :
    exec i s = completeRead (readWord i s.block) s := by
  cases i <;> cases h <;> rfl

/-- A property of instructions holds of each when it holds of those that issue a command, of the illegal writes to CMD, of
the field writes, of the three data port writes and of the reads. -/
theorem instr_classes {P : Instr → Prop} (issues : ∀ i c, issuedCommand i = some c → P i)
    (illegal : ∀ w cause, decodeCommand w = .error cause → P (.wrCmd w))
    (fieldWrite : ∀ n w, P (FieldName.writeInstr n w)) (hdrData : ∀ w, P (.wrHdrData w)) (crcData : ∀ w, P (.wrCrcData w))
    (payData : ∀ w, P (.wrPayData w)) (reads : ∀ i, isRead i = true → P i) (i : Instr) : P i := by
  cases i
  case wrCmd w =>
    cases hw : decodeCommand w with
    | ok c => exact issues _ c (by rw [issuedCommand, hw]; rfl)
    | error cause => exact illegal w cause hw
  case wrVersion w => exact fieldWrite .version w
  case wrAudioType w => exact fieldWrite .audioType w
  case wrSampleRate w => exact fieldWrite .sampleRate w
  case wrChannelCount w => exact fieldWrite .channelCount w
  case wrFrameFlag w => exact fieldWrite .frameFlag w
  case wrFrameSeq w => exact fieldWrite .frameSeq w
  case wrTimestamp w => exact fieldWrite .timestamp w
  case wrPayloadLen w => exact fieldWrite .payloadLen w
  case wrChecksum w => exact fieldWrite .checksum w
  case wrHdrData w => exact hdrData w
  case wrCrcData w => exact crcData w
  case wrPayData w => exact payData w
  case nop | pack | packZ | unpack | crcInit | crcHdr | crcHdrZ | crcSet | vcheck | hdrClr | statClr =>
    exact issues _ _ rfl
  all_goals exact reads _ rfl

/-- R71: a field write issues no command. -/
theorem issuedCommand_writeInstr (n : FieldName) (w : Word) : issuedCommand (n.writeInstr w) = none := by
  cases n <;> rfl

/-- R71: a read issues no command. -/
theorem issuedCommand_of_isRead {i : Instr} (h : isRead i = true) : issuedCommand i = none := by
  cases i <;> cases h <;> rfl

/-- R71: an illegal write to CMD issues no command. -/
theorem issuedCommand_of_error {w : Word} {cause : IllegalCause} (h : decodeCommand w = .error cause) :
    issuedCommand (.wrCmd w) = none := by
  rw [issuedCommand, h]
  rfl

/-- R57: every instruction that is no read changes the block alone, by an effect that depends on the block alone. -/
theorem exec_of_not_isRead {i : Instr} (h : isRead i = false) :
    ∃ effect : Block → Block, ∀ s, exec i s = completeWrite effect s := by
  induction i using instr_classes with
  | issues i c hc => exact ⟨_, exec_of_issuedCommand hc⟩
  | illegal w cause hw => exact ⟨Block.result errIllegalCommand, exec_wrCmd_of_error hw⟩
  | fieldWrite n w => exact ⟨_, exec_writeInstr n w⟩
  | hdrData w => exact ⟨fun b => (b.flagTruncation 8 w).appendHeader (w.setWidth 8), exec_wrHdrData w⟩
  | crcData w => exact ⟨fun b => (b.flagTruncation 8 w).foldCrc [w.setWidth 8], exec_wrCrcData w⟩
  | payData w => exact ⟨fun b => (b.flagTruncation 8 w).takePayload (w.setWidth 8), exec_wrPayData w⟩
  | reads i hi => exact absurd (hi.symm.trans h) (by decide)

/-- R222: every instruction completes, and does the same whatever host events are still to come, which it keeps. -/
theorem exec_completes (i : Instr) (s : State) :
    ∃ b words, ∀ events, exec i { s with pending := events } = .next ⟨b, events, words⟩ := by
  cases hread : isRead i with
  | true =>
    exact ⟨s.block, s.readData ++ [readWord i s.block], fun events => exec_of_isRead hread { s with pending := events }⟩
  | false =>
    obtain ⟨effect, heffect⟩ := exec_of_not_isRead hread
    exact ⟨effect s.block, s.readData, fun events => heffect { s with pending := events }⟩

/-- Settles O12: a read adds its word to those the host has read, any other instruction touches the block alone. -/
theorem everyInstructionCompletes : Obligations.EveryInstructionCompletes := by
  intro i s
  cases hread : isRead i with
  | true => exact ⟨_, exec_of_isRead hread s, rfl, _, rfl⟩
  | false =>
    obtain ⟨effect, heffect⟩ := exec_of_not_isRead hread
    exact ⟨_, heffect s, rfl, rfl⟩

/-- Settles O21: the word a read returns depends on the block, which the read keeps. -/
theorem readsHaveNoSideEffects : Obligations.ReadsHaveNoSideEffects := by
  intro i s hread
  refine ⟨_, exec_of_isRead hread s, ?_⟩
  rw [exec_of_isRead hread, completeRead, List.append_assoc]
  rfl

end Sys2Proof.Machine
end

section
/-! The bus checks, and sequences of accesses as sequences of steps: O7, O8, O10, O11, O13. -/

namespace Sys2Proof

/-- R70: a register's read is accepted exactly outside the write-only offsets. -/
theorem decodeAccess_rd_cases (r : Reg) :
    (r.offset ∈ writeOnlyOffsets ∧ decodeAccess r.rd = .error .readOfWriteOnly) ∨
    (r.offset ∉ writeOnlyOffsets ∧ ∃ i, decodeAccess r.rd = .ok i) := by
  rw [decodeAccess_rd]
  cases r <;> simp [Reg.offset, writeOnlyOffsets]

/-- R70: a register's write is accepted exactly outside the read-only offsets. -/
theorem decodeAccess_wr_cases (r : Reg) (w : Word) :
    (r.offset ∈ readOnlyOffsets ∧ decodeAccess (r.wr w) = .error .writeOfReadOnly) ∨
    (r.offset ∉ readOnlyOffsets ∧ ∃ i, decodeAccess (r.wr w) = .ok i) := by
  rw [decodeAccess_wr]
  cases r <;> simp [Reg.offset, readOnlyOffsets]

/-- R201: an access that passes every bus check decodes to an instruction. -/
theorem exists_decodeAccess_of_wellFormed {a : Access} (h : a.wellFormed = true) : ∃ i, decodeAccess a = .ok i := by
  obtain ⟨r, rfl | ⟨w, rfl⟩⟩ : ∃ r : Reg, a = r.rd ∨ ∃ w, a = r.wr w := by
    simp only [Access.wellFormed, Access.widthOk, Access.alignedOk, Access.mappedOk, Bool.and_eq_true, beq_iff_eq,
      decide_eq_true_eq] at h
    obtain ⟨⟨⟨hsize, halign⟩, hrange⟩, -⟩ := h
    exact Access.eq_rd_or_wr hsize halign hrange
  · obtain ⟨hoff, -⟩ | ⟨-, hi⟩ := decodeAccess_rd_cases r
    · rw [Reg.rd_wellFormed] at h
      simp [hoff] at h
    · exact hi
  · obtain ⟨hoff, -⟩ | ⟨-, hi⟩ := decodeAccess_wr_cases r w
    · rw [Reg.wr_wellFormed] at h
      simp [hoff] at h
    · exact hi

namespace Machine

/-- R201: an access that fails a bus check ends with the bus error. -/
theorem performAccess_of_error {a : Access} {cause : BusCause} (h : decodeAccess a = .error cause) (s : State) :
    performAccess a s = .fault (.busError cause a.offset) := by
  rw [performAccess, h]
  rfl

/-- R222: an accepted access completes. -/
theorem performAccess_completes {a : Access} {i : Instr} (h : decodeAccess a = .ok i) (s : State) :
    ∃ t, performAccess a s = .next t := by
  obtain ⟨t, ht, -⟩ := everyInstructionCompletes i s
  exact ⟨t, (performAccess_of_ok h s).trans ht⟩

/-- Settles O7: the decoder's first three tests are the first three checks; what passes them is a register's read or write,
refused exactly at the offsets of the fourth and the fifth. -/
theorem busChecksInOrder : Obligations.BusChecksInOrder := by
  intro a rest s
  simp only [step_access]
  split_ifs with hsize halign hrange hread hwrite
  · exact performAccess_of_error (by simp [decodeAccess, hsize]) _
  · exact performAccess_of_error (by simp [decodeAccess, hsize, halign]) _
  · exact performAccess_of_error (by simp [decodeAccess, hsize, halign, Config.windowSize, hrange]) _
  all_goals
    obtain ⟨r, rfl | ⟨w, rfl⟩⟩ := Access.eq_rd_or_wr (not_not.mp hsize) (not_not.mp halign) (not_le.mp hrange)
  · obtain ⟨-, h⟩ | ⟨hoff, -⟩ := decodeAccess_rd_cases r
    · exact performAccess_of_error h _
    · exact absurd hread.2 hoff
  · cases hread.1
  · exact absurd rfl hwrite.1
  · obtain ⟨-, h⟩ | ⟨hoff, -⟩ := decodeAccess_wr_cases r w
    · exact performAccess_of_error h _
    · exact absurd hwrite.2 hoff
  · obtain ⟨hoff, -⟩ | ⟨-, i, h⟩ := decodeAccess_rd_cases r
    · exact absurd ⟨rfl, hoff⟩ hread
    · exact performAccess_completes h _
  · obtain ⟨hoff, -⟩ | ⟨-, i, h⟩ := decodeAccess_wr_cases r w
    · exact absurd ⟨nofun, hoff⟩ hwrite
    · exact performAccess_completes h _

/-- Settles O8: P_BASE is a multiple of the region's size by its definition, and a bus address is taken to its offset in the
region, or refused outside it. -/
theorem busAddressReachesRegion : Obligations.BusAddressReachesRegion := by
  refine ⟨Nat.mul_mod_right _ _, fun kind address size rest s => ?_⟩
  have hstep : step { s with pending := .busAccess kind address size :: rest } =
      performBusAccess Config.pBase kind address size { s with pending := rest } := rfl
  rw [hstep, performBusAccess, offsetFrom, Config.regionSize]
  split_ifs with hregion
  · exact (step_access _ rest s).symm
  · rfl

/-- Settles O10: the reset event is performed on the block alone. -/
theorem resetEventSetsWholeBlock : Obligations.ResetEventSetsWholeBlock := fun _ _ => rfl

/-- R61: an access does the same whatever host events are still to come, which it keeps: it ends with the bus error, or
completes. -/
theorem performAccess_cases (a : Access) (s : State) :
    (∃ fault, ∀ events, performAccess a { s with pending := events } = .fault fault) ∨
    ∃ b words, ∀ events, performAccess a { s with pending := events } = .next ⟨b, events, words⟩ := by
  cases ha : decodeAccess a with
  | error cause => exact .inl ⟨_, fun _ => performAccess_of_error ha _⟩
  | ok i =>
    obtain ⟨b, words, h⟩ := exec_completes i s
    exact .inr ⟨b, words, fun events => (performAccess_of_ok ha _).trans (h events)⟩

/-- R35: a host program's first access is the next one the step takes. -/
theorem step_withProgram_cons (a : Access) (rest : List Access) (s : State) :
    step (s.withProgram (a :: rest)) = performAccess a (s.withProgram rest) := rfl

/-- A run goes on from the state that its first step answers. -/
theorem run_succ_of_next {s t : State} (h : step s = .next t) (k : Nat) : core.run (k + 1) s = core.run k t := by
  have hcore : core.step s = .next t := h
  simp only [Host.Core.run, hcore]

/-- A run ends with the fault of its first step. -/
theorem run_succ_of_fault {s : State} {r : Fault} (h : step s = .fault r) (k : Nat) : core.run (k + 1) s = .fault r := by
  have hcore : core.step s = .fault r := h
  simp only [Host.Core.run, hcore]

/-- Settles O11: by induction on the accesses; the first one ends both the run and the fold, or leaves both with the other
accesses, since it does not depend on the list of host events. -/
theorem stepsFoldTheAccesses : Obligations.StepsFoldTheAccesses := by
  intro accesses
  induction accesses with
  | nil => exact fun _ => rfl
  | cons a rest ih =>
    intro s
    obtain ⟨r, h⟩ | ⟨b, words, h⟩ := performAccess_cases a s
    · have hfold : performAll (a :: rest) s = .fault r := by
        rw [performAll, h s.pending]
      rw [hfold]
      exact run_succ_of_fault ((step_withProgram_cons a rest s).trans (h _)) _
    · have hfold : performAll (a :: rest) s = performAll rest ⟨b, s.pending, words⟩ :=
        performAll_cons_of_next (h s.pending) rest
      rw [hfold, ← ih]
      exact run_succ_of_next ((step_withProgram_cons a rest s).trans (h _)) _

/-- Settles O13: each access decodes to an instruction, and every instruction completes. -/
theorem busCleanProgramsComplete : Obligations.BusCleanProgramsComplete := by
  intro accesses
  induction accesses with
  | nil => exact fun s _ => ⟨s, rfl⟩
  | cons a rest ih =>
    intro s hclean
    rw [busClean, List.all_cons, Bool.and_eq_true] at hclean
    obtain ⟨ha, hrest⟩ := hclean
    obtain ⟨i, hi⟩ := exists_decodeAccess_of_wellFormed ha
    obtain ⟨t, ht⟩ := performAccess_completes hi s
    obtain ⟨u, hu⟩ := ih t hrest
    exact ⟨u, (performAll_cons_of_next ht rest).trans hu⟩

end Machine

end Sys2Proof
end

section
/-! The block's invariant: O51, O52. -/

namespace Sys2Proof.Machine

/-- R38: at reset nothing is filled, checked or recorded. -/
theorem reset_inv : Block.reset.Inv :=
  ⟨by decide, by decide, nofun, fun i _ => reset_hdr_getElem i, fun _ => nofun⟩

/-- Settles O51: the reset state's block is the reset block. -/
theorem resetMeetsBlockInvariant : Obligations.ResetMeetsBlockInvariant := reset_inv

/-- A result code from 0 to 4 keeps the invariant. -/
theorem Block.Inv.result {b : Block} (h : b.Inv) {code : BitVec 3} (hcode : code ≤ 4#3) : (b.result code).Inv := by
  obtain ⟨hhlen, -, hvalid, hzero, hexcess⟩ := h
  exact ⟨hhlen, hcode, hvalid, hzero, hexcess⟩

/-- The invariant speaks of neither the fields, CRC, PCNT nor the sticky flags. -/
theorem Block.Inv.frame {b : Block} (h : b.Inv) (fields : Fields) (crc : BitVec 16) (pcnt : BitVec 32) (ftrunc hovf : Bool) :
    Block.Inv { b with fields := fields, crc := crc, pcnt := pcnt, ftrunc := ftrunc, hovf := hovf } := h

/-- R29 to R31: with no check done there is no result, and nothing was accepted. -/
theorem Block.Inv.unchecked {b : Block} (h : b.Inv) (excess : Bool) :
    Block.Inv { b with valid := false, vdone := false, excess := excess } := by
  obtain ⟨hhlen, herr, -, hzero, -⟩ := h
  exact ⟨hhlen, herr, nofun, hzero, fun _ => nofun⟩

/-- R142, R143: a full header has no unfilled bytes. -/
theorem Block.Inv.packHeader {b : Block} (h : b.Inv) (cs : BitVec 16) : (b.packHeader cs).Inv := by
  obtain ⟨-, herr, hvalid, -, hexcess⟩ := h
  exact ⟨BitVec.le_refl 12#4, herr, hvalid, fun i hi => absurd i.isLt (Nat.not_lt.mpr hi), hexcess⟩

/-- R146: an emptied header buffer is all zero. -/
theorem Block.Inv.clearHeader {b : Block} (h : b.Inv) :
    Block.Inv { b with hdr := Vector.replicate 12 0x00#8, hlen := 0#4 } := by
  obtain ⟨-, herr, hvalid, -, hexcess⟩ := h
  exact ⟨Nat.zero_le _, herr, hvalid, fun i _ => Vector.getElem_replicate i.isLt, hexcess⟩

/-- R144: a byte taken at index HLEN leaves the bytes above it zero; a byte dropped changes neither HDR nor HLEN. -/
theorem Block.Inv.appendHeader {b : Block} (h : b.Inv) (x : Byte) : (b.appendHeader x).Inv := by
  by_cases hroom : b.hlen < 12#4
  · rw [Block.appendHeader_of_lt hroom]
    obtain ⟨-, herr, hvalid, hzero, hexcess⟩ := h
    have hlen := Block.hlen_add_one_toNat (b.hlen_lt_twelve_iff.mp hroom)
    refine ⟨?_, herr, hvalid, fun i hi => ?_, hexcess⟩
    · rw [Block.hlen_lt_twelve_iff] at hroom
      rw [Block.hlenInRange, BitVec.le_def, hlen]
      exact hroom
    · rw [hlen] at hi
      rw [Fin.getElem_fin, Vector.getElem_setIfInBounds_ne _ (by omega)]
      exact hzero i (by omega)
  · rw [Block.appendHeader_of_not_lt hroom]
    exact h

/-- R145, R165, R166: a command on a full header keeps the invariant where its effect does. -/
theorem Block.Inv.withFullHeader {b : Block} (h : b.Inv) {effect : Block → Block} (heffect : (effect b).Inv) :
    (b.withFullHeader effect).Inv := by
  obtain ⟨-, heq⟩ | ⟨-, heq⟩ := b.withFullHeader_cases effect <;> rw [heq]
  · exact h.result (by decide)
  · exact heffect.result (by decide)

/-- R180: VCHECK under the model's P_REJECT_EXCESS; where that is true, a check that sees trailing bytes is refused. -/
theorem Block.Inv.verify {b : Block} (h : b.Inv) : (b.verify Config.rejectExcess).Inv := by
  obtain ⟨-, heq⟩ | ⟨-, -, heq⟩ | ⟨-, -, -, heq⟩ | ⟨-, -, haccepted, heq⟩ := b.verify_cases Config.rejectExcess <;> rw [heq]
  · exact (h.unchecked false).result (by decide)
  · exact (h.unchecked false).result (by decide)
  · exact (h.unchecked true).result (by decide)
  · obtain ⟨hhlen, -, -, hzero, -⟩ := h
    exact ⟨hhlen, Nat.zero_le _, fun _ => rfl, hzero, fun hreject _ => decide_eq_false fun hlt => haccepted ⟨hlt, hreject⟩⟩

/-- R71: every command keeps the invariant. -/
theorem Block.Inv.commandEffect {b : Block} (h : b.Inv) (c : Command) : (commandEffect c b).Inv := by
  cases c with
  | nop => exact h.result (by decide)
  | pack => exact (h.packHeader _).result (by decide)
  | packZ => exact (h.packHeader _).result (by decide)
  | unpack => exact h.withFullHeader (h.frame _ _ _ _ _)
  | crcInit => exact ((h.unchecked false).frame _ _ _ _ _).result (by decide)
  | crcHdr => exact h.withFullHeader (h.frame _ _ _ _ _)
  | crcHdrZ => exact h.withFullHeader (h.frame _ _ _ _ _)
  | crcSet => exact (h.frame _ _ _ _ _).result (by decide)
  | vcheck => exact h.verify
  | hdrClr => exact h.clearHeader.result (by decide)
  | statClr => exact ((h.unchecked false).frame _ _ _ _ _).result (by decide)

/-- Every instruction keeps the invariant. -/
theorem exec_keeps_inv {i : Instr} {s t : State} (h : s.Inv) (hexec : exec i s = .next t) : t.Inv := by
  induction i using instr_classes with
  | issues i c hc =>
    rw [exec_of_issuedCommand hc, completeWrite_eq_next] at hexec
    exact hexec ▸ h.commandEffect c
  | illegal w cause hw =>
    rw [exec_wrCmd_of_error hw] at hexec
    cases hexec
    exact h.result (by decide)
  | fieldWrite n w =>
    rw [exec_writeInstr, completeWrite_eq_next] at hexec
    exact hexec ▸ h.frame _ _ _ _ _
  | hdrData w =>
    rw [exec_wrHdrData] at hexec
    cases hexec
    exact (h.frame _ _ _ _ _).appendHeader _
  | crcData w =>
    rw [exec_wrCrcData] at hexec
    cases hexec
    exact h.frame _ _ _ _ _
  | payData w =>
    rw [exec_wrPayData] at hexec
    cases hexec
    exact h.frame _ _ _ _ _
  | reads i hi =>
    rw [exec_of_isRead hi, completeRead_eq_next] at hexec
    exact hexec ▸ h

/-- An access that completes keeps the invariant. -/
theorem performAccess_keeps_inv {a : Access} {s t : State} (h : s.Inv) (ht : performAccess a s = .next t) : t.Inv := by
  cases ha : decodeAccess a with
  | ok i => exact exec_keeps_inv h ((performAccess_of_ok ha s).symm.trans ht)
  | error cause =>
    rw [performAccess_of_error ha] at ht
    cases ht

/-- Every host event that completes keeps the invariant; reset establishes it. -/
theorem performEvent_keeps_inv {e : HostEvent} {s t : State} (h : s.Inv) (ht : performEvent e s = .next t) : t.Inv := by
  cases e with
  | access a => exact performAccess_keeps_inv h ht
  | busAccess kind address size =>
    rw [performEvent, performBusAccess] at ht
    cases hoff : offsetFrom Config.pBase address with
    | some offset =>
      rw [hoff] at ht
      exact performAccess_keeps_inv h ht
    | none =>
      rw [hoff] at ht
      cases ht
  | reset =>
    cases ht
    exact reset_inv

/-- Settles O52: a step does nothing, or performs the next host event, which keeps the invariant. -/
theorem stepKeepsBlockInvariant : Obligations.StepKeepsBlockInvariant := by
  intro s t h ht
  obtain ⟨-, hidle⟩ | ⟨e, rest, -, hevent⟩ := step_cases s
  · rw [hidle] at ht
    cases ht
    exact h
  · rw [hevent] at ht
    exact performEvent_keeps_inv (s := { s with pending := rest }) h ht

end Sys2Proof.Machine
end

section
/-! NOP, STAT_CLR and the write to CMD, and which instruction writes which element of the block: O44 to O50. -/

namespace Sys2Proof.Machine

/-- R181: NOP clears ERR alone. -/
theorem exec_nop (s : State) : exec .nop s = .next { s with block := { s.block with err := 0#3 } } := rfl

/-- R182: STAT_CLR clears the fields of STATUS alone. -/
theorem exec_statClr (s : State) : exec .statClr s = .next { s with block := s.block.clearStatus } := rfl

/-- Settles O44: the legal words are those of NOP and STAT_CLR, the two others have Z on NOP's OP and an OP above 8, and
STATUS reads 0 once its fields are clear. -/
theorem nopAndStatClrClear : Obligations.NopAndStatClrClear := by
  intro s
  have hz : decodeCommand 0x00000010#32 = .error .zeroModifier := rfl
  have hop : decodeCommand 0x00000009#32 = .error .opRange := rfl
  refine ⟨exec_wrCmd_commandWord .nop s, exec_wrCmd_of_error hz s, exec_wrCmd_of_error hop s,
    exec_wrCmd_commandWord .statClr s, exec_nop s, _, exec_statClr s, ?_, rfl⟩
  rw [exec_rdStatus, statusWord_clearStatus]

/-- Settles O45: the decoder answers a command for its word alone, and an error for every other word. -/
theorem cmdWriteIssuesOrRecordsIllegal : Obligations.CmdWriteIssuesOrRecordsIllegal := by
  intro w s
  cases hw : decodeCommand w with
  | ok c =>
    obtain rfl := decodeCommand_eq_ok_iff.mp hw
    exact .inl ⟨c, rfl, exec_wrCmd_commandWord c s⟩
  | error cause =>
    refine .inr ⟨fun c hc => ?_, exec_wrCmd_of_error hw s⟩
    rw [hc, decodeCommand_commandWord] at hw
    cases hw

/-- R28: every command ends with a code from 0 to 4. -/
theorem commandEffect_err_le (c : Command) (b : Block) : (commandEffect c b).err.toNat ≤ 4 := by
  cases c
  case unpack | crcHdr | crcHdrZ =>
    rw [commandEffect, Block.withFullHeader]
    split <;> simp [errTruncatedHeader, errNone]
  case vcheck =>
    rw [commandEffect, Block.verify_eq]
    split_ifs <;> simp
  all_goals exact Nat.zero_le 4

/-- R28: no command depends on the code of the one before it, which it overwrites. -/
theorem commandEffect_of_err (c : Command) (b : Block) (e : BitVec 3) :
    commandEffect c { b with err := e } = commandEffect c b := by
  cases c <;> rfl

/-- R28: a field write is no command. -/
theorem isCommand_writeInstr (n : FieldName) (w : Word) : isCommand (n.writeInstr w) = false := by
  cases n <;> rfl

/-- R57: a read is no command. -/
theorem isCommand_of_isRead {i : Instr} (h : isRead i = true) : isCommand i = false := by
  cases i <;> cases h <;> rfl

/-- R144: taking a header byte touches the header buffer, and sets HOVF only where HLEN is not below 12. -/
theorem Block.appendHeader_frame (x : Byte) (b : Block) :
    b.appendHeader x =
      { b with
        hdr := (b.appendHeader x).hdr, hlen := (b.appendHeader x).hlen,
        hovf := b.hovf || decide (12 ≤ b.hlen.toNat) } := by
  by_cases h : b.hlen < 12#4
  · rw [Block.appendHeader_of_lt h]
    rw [Block.hlen_lt_twelve_iff] at h
    simp [h]
  · rw [Block.appendHeader_of_not_lt h]
    rw [Block.hlen_lt_twelve_iff, Nat.not_lt] at h
    simp [h]

/-- Settles O46: a command's effect ends with a code and ignores the one before; an illegal word records 4; the effects of
the other instructions leave ERR alone. -/
theorem errWrittenByCommandsOnly : Obligations.ErrWrittenByCommandsOnly := by
  intro i s
  induction i using instr_classes with
  | issues i c hc =>
    refine ⟨_, exec_of_issuedCommand hc s, ?_⟩
    rw [if_pos (isCommand_of_issuedCommand hc)]
    refine ⟨commandEffect_err_le c s.block, fun e => ?_⟩
    rw [exec_of_issuedCommand hc, completeWrite, commandEffect_of_err]
  | illegal w cause hw =>
    refine ⟨_, exec_wrCmd_of_error hw s, ?_⟩
    exact ⟨Nat.le_refl 4, fun e => exec_wrCmd_of_error hw _⟩
  | fieldWrite n w =>
    refine ⟨_, exec_writeInstr n w s, ?_⟩
    rw [isCommand_writeInstr]
    exact truncWrite_err ..
  | hdrData w =>
    refine ⟨_, exec_wrHdrData w s, ?_⟩
    rw [Block.appendHeader_frame]
    rfl
  | crcData w => exact ⟨_, exec_wrCrcData w s, rfl⟩
  | payData w => exact ⟨_, exec_wrPayData w s, rfl⟩
  | reads i hi =>
    refine ⟨_, exec_of_isRead hi s, ?_⟩
    rw [isCommand_of_isRead hi]
    rfl

/-- R21 to R33: which command can change which elements of the block. -/
theorem commandEffect_writers (c : Command) (b : Block) :
    ((commandEffect c b).fields = b.fields ∨ c = .unpack ∨ c = .crcSet) ∧
    (((commandEffect c b).hdr = b.hdr ∧ (commandEffect c b).hlen = b.hlen) ∨ c = .pack ∨ c = .packZ ∨ c = .hdrClr) ∧
    ((commandEffect c b).crc = b.crc ∨ c = .crcInit ∨ c = .crcHdr ∨ c = .crcHdrZ) ∧
    ((commandEffect c b).pcnt = b.pcnt ∨ c = .crcInit) ∧
    (((commandEffect c b).valid = b.valid ∧ (commandEffect c b).vdone = b.vdone ∧
      (commandEffect c b).excess = b.excess) ∨ c = .vcheck ∨ c = .crcInit ∨ c = .statClr) ∧
    (((commandEffect c b).ftrunc = b.ftrunc ∧ (commandEffect c b).hovf = b.hovf) ∨ c = .statClr) := by
  cases c
  case unpack | crcHdr | crcHdrZ =>
    rw [commandEffect, Block.withFullHeader]
    split <;> simp
  case vcheck =>
    rw [commandEffect, Block.verify_frame]
    simp
  all_goals simp [commandEffect]

/-- Settles O47: of the commands STAT_CLR alone touches the two flags, and the writes to fields and data ports only set
them. -/
theorem stickyFlagsClearedByStatClrOnly : Obligations.StickyFlagsClearedByStatClrOnly := by
  intro i s
  induction i using instr_classes with
  | issues i c hc =>
    refine ⟨_, exec_of_issuedCommand hc s, ?_⟩
    split
    next hclr =>
      obtain rfl : c = .statClr := by simpa [hc] using hclr
      exact ⟨rfl, rfl⟩
    next hclr =>
      obtain ⟨-, -, -, -, -, ⟨hftrunc, hhovf⟩ | rfl⟩ := commandEffect_writers c s.block
      · exact ⟨hftrunc.trans, hhovf.trans⟩
      · exact absurd hc hclr
  | illegal w cause hw =>
    refine ⟨_, exec_wrCmd_of_error hw s, ?_⟩
    rw [issuedCommand_of_error hw]
    exact ⟨id, id⟩
  | fieldWrite n w =>
    refine ⟨_, exec_writeInstr n w s, ?_⟩
    rw [issuedCommand_writeInstr]
    exact ⟨fun h => by simp [h], id⟩
  | hdrData w =>
    refine ⟨_, exec_wrHdrData w s, ?_⟩
    rw [Block.appendHeader_frame]
    exact ⟨fun h => by simp [h], fun h => by simp [h]⟩
  | crcData w => exact ⟨_, exec_wrCrcData w s, fun h => by simp [h], id⟩
  | payData w => exact ⟨_, exec_wrPayData w s, fun h => by simp [h], id⟩
  | reads i hi =>
    refine ⟨_, exec_of_isRead hi s, ?_⟩
    rw [issuedCommand_of_isRead hi]
    exact ⟨id, id⟩

/-- R32: a flag that a write of a word to a target of `n` bits has raised was raised by a lost bit. -/
theorem word_wide_of_raised {n : Nat} {w : Word} {flag flag' : Bool} (hflag : flag' = (flag || lostBits n w))
    (hbefore : flag = false) (hafter : flag' = true) : 2 ^ n ≤ w.toNat := by
  rwa [hflag, hbefore, Bool.false_or, lostBits_iff] at hafter

/-- A flag that is left alone is not raised. -/
theorem not_raised {flag flag' : Bool} (hflag : flag' = flag) {P : Prop} (hbefore : flag = false)
    (hafter : flag' = true) : P :=
  absurd (hbefore.symm.trans (hflag.symm.trans hafter)) (by decide)

/-- Settles O48: no command raises FTRUNC or HOVF; a write raises FTRUNC by a lost bit, and HDR_DATA raises HOVF by a full
buffer. -/
theorem stickyFlagsSetOnlyByTheirCauses : Obligations.StickyFlagsSetOnlyByTheirCauses := by
  intro i s
  induction i using instr_classes with
  | issues i c hc =>
    refine ⟨_, exec_of_issuedCommand hc s, ?_⟩
    obtain ⟨-, -, -, -, -, ⟨hftrunc, hhovf⟩ | rfl⟩ := commandEffect_writers c s.block
    · exact ⟨not_raised hftrunc, not_raised hhovf⟩
    · exact ⟨fun _ => nofun, fun _ => nofun⟩
  | illegal w cause hw => exact ⟨_, exec_wrCmd_of_error hw s, not_raised rfl, not_raised rfl⟩
  | fieldWrite n w =>
    exact ⟨_, exec_writeInstr n w s, fun h h' => .inl ⟨n, w, rfl, word_wide_of_raised rfl h h'⟩, not_raised rfl⟩
  | hdrData w =>
    refine ⟨_, exec_wrHdrData w s, ?_⟩
    rw [Block.appendHeader_frame]
    refine ⟨fun h h' => .inr ⟨w, .inl rfl, word_wide_of_raised rfl h h'⟩, fun h h' => ⟨⟨w, rfl⟩, ?_⟩⟩
    simp only [Block.flagTruncation_hovf, h, Bool.false_or, decide_eq_true_eq] at h'
    exact h'
  | crcData w =>
    exact ⟨_, exec_wrCrcData w s, fun h h' => .inr ⟨w, .inr (.inl rfl), word_wide_of_raised rfl h h'⟩, not_raised rfl⟩
  | payData w =>
    exact ⟨_, exec_wrPayData w s, fun h h' => .inr ⟨w, .inr (.inr rfl), word_wide_of_raised rfl h h'⟩, not_raised rfl⟩
  | reads i hi => exact ⟨_, exec_of_isRead hi s, not_raised rfl, not_raised rfl⟩

/-- Settles O49: by the writers of each command, and by the frames of the field write and the data ports. -/
theorem headerStateWriters : Obligations.HeaderStateWriters := by
  intro i s
  induction i using instr_classes with
  | issues i c hc =>
    refine ⟨_, exec_of_issuedCommand hc s, ?_⟩
    obtain ⟨hfields, hheader, -⟩ := commandEffect_writers c s.block
    simp only [hc, Option.some.injEq]
    exact ⟨hfields.imp_right .inr, hheader.imp_right .inr⟩
  | illegal w cause hw => exact ⟨_, exec_wrCmd_of_error hw s, .inl rfl, .inl ⟨rfl, rfl⟩⟩
  | fieldWrite n w => exact ⟨_, exec_writeInstr n w s, .inr (.inl ⟨n, w, rfl⟩), .inl ⟨rfl, rfl⟩⟩
  | hdrData w =>
    refine ⟨_, exec_wrHdrData w s, ?_⟩
    rw [Block.appendHeader_frame]
    exact ⟨.inl rfl, .inr (.inl ⟨w, rfl⟩)⟩
  | crcData w => exact ⟨_, exec_wrCrcData w s, .inl rfl, .inl ⟨rfl, rfl⟩⟩
  | payData w => exact ⟨_, exec_wrPayData w s, .inl rfl, .inl ⟨rfl, rfl⟩⟩
  | reads i hi => exact ⟨_, exec_of_isRead hi s, .inl rfl, .inl ⟨rfl, rfl⟩⟩

/-- Settles O50: by the writers of each command, and by the frames of the field write and the data ports. -/
theorem checksumStateWriters : Obligations.ChecksumStateWriters := by
  intro i s
  induction i using instr_classes with
  | issues i c hc =>
    refine ⟨_, exec_of_issuedCommand hc s, ?_⟩
    obtain ⟨-, -, hcrc, hpcnt, hflags, -⟩ := commandEffect_writers c s.block
    simp only [hc, Option.some.injEq]
    exact ⟨hcrc.imp_right fun h => .inr (.inr h), hpcnt.imp_right .inr, hflags⟩
  | illegal w cause hw => exact ⟨_, exec_wrCmd_of_error hw s, .inl rfl, .inl rfl, .inl ⟨rfl, rfl, rfl⟩⟩
  | fieldWrite n w => exact ⟨_, exec_writeInstr n w s, .inl rfl, .inl rfl, .inl ⟨rfl, rfl, rfl⟩⟩
  | hdrData w =>
    refine ⟨_, exec_wrHdrData w s, ?_⟩
    rw [Block.appendHeader_frame]
    exact ⟨.inl rfl, .inl rfl, .inl ⟨rfl, rfl, rfl⟩⟩
  | crcData w => exact ⟨_, exec_wrCrcData w s, .inr (.inl ⟨w, rfl⟩), .inl rfl, .inl ⟨rfl, rfl, rfl⟩⟩
  | payData w =>
    exact ⟨_, exec_wrPayData w s, .inr (.inr (.inl ⟨w, rfl⟩)), .inr (.inl ⟨w, rfl⟩), .inl ⟨rfl, rfl, rfl⟩⟩
  | reads i hi => exact ⟨_, exec_of_isRead hi s, .inl rfl, .inl rfl, .inl ⟨rfl, rfl, rfl⟩⟩

end Sys2Proof.Machine
end

section
/-! Field registers read back, the read-only registers, and the block as its reads show it: O16, O17, O19, O20, O22. -/

namespace Sys2Proof.Machine

/-- A field of a record reads back what was set. -/
@[simp] theorem Fields.get_put (f : Fields) (n : FieldName) (v : BitVec n.width) : (f.put n v).get n = v := by
  cases n <;> rfl

/-- Setting a field twice is setting it once. -/
@[simp] theorem Fields.put_put (f : Fields) (n : FieldName) (u v : BitVec n.width) : (f.put n u).put n v = f.put n v := by
  cases n <;> rfl

/-- Two records with the same nine fields are one. -/
theorem Fields.ext_get {f g : Fields} (h : ∀ n, f.get n = g.get n) : f = g := by
  obtain ⟨⟩ := f
  obtain ⟨⟩ := g
  rw [Fields.mk.injEq]
  exact ⟨h .version, h .audioType, h .sampleRate, h .channelCount, h .frameFlag, h .frameSeq, h .timestamp, h .payloadLen,
    h .checksum⟩

/-- Settles O16: the write sets the field to the masked word, and the read hands over the field. -/
theorem fieldReadsBackMasked : Obligations.FieldReadsBackMasked := by
  intro n w s
  refine ⟨_, exec_writeInstr n w s, ?_⟩
  have hword : readOperand (writeOperand n.width w) = BitVec.ofNat 32 (w.toNat % 2 ^ n.width) := by
    rw [← writeOperand_toNat, BitVec.ofNat_toNat, readOperand]
  rw [exec_readInstr, truncWrite_fields, Fields.get_put, hword]
  rfl

/-- R100: a truncating write of a field done twice is done once. -/
theorem truncWrite_put_idem (n : FieldName) (w : Word) (b : Block) :
    truncWrite n.width (fun f v => f.put n v) w (truncWrite n.width (fun f v => f.put n v) w b) =
      truncWrite n.width (fun f v => f.put n v) w b := by
  simp [truncWrite, Block.flagTruncation]

/-- Settles O17: the second write sets the field to what stands there and FTRUNC by the bit that has set it already. -/
theorem fieldWriteIsIdempotent : Obligations.FieldWriteIsIdempotent := by
  intro n w s
  refine ⟨_, exec_writeInstr n w s, ?_⟩
  rw [exec_writeInstr, completeWrite_eq_next, truncWrite_put_idem]

/-- R54: a header word splits into the four bytes it was made of. -/
theorem bytesOfWord_wordOfBytes (b0 b1 b2 b3 : Byte) : bytesOfWord (wordOfBytes b0 b1 b2 b3) = [b0, b1, b2, b3] := by
  simp only [bytesOfWord, wordOfBytes, List.cons.injEq, and_true, ← BitVec.toNat_inj, BitVec.extractLsb'_toNat,
    toNat_append_eq_mul_add, Nat.shiftRight_eq_div_pow]
  omega

/-- R54: the first byte of a header word stands in its highest eight bits. -/
theorem wordOfBytes_toNat_div (b0 b1 b2 b3 : Byte) : (wordOfBytes b0 b1 b2 b3).toNat / 2 ^ 24 = b0.toNat := by
  simp only [wordOfBytes, toNat_append_eq_mul_add]
  omega

/-- Settles O19: each read hands over the word of its four bytes of HDR. -/
theorem headerWordsAreBigEndian : Obligations.HeaderWordsAreBigEndian := fun _ =>
  ⟨⟨_, exec_of_isRead rfl _, bytesOfWord_wordOfBytes .., wordOfBytes_toNat_div ..⟩,
    ⟨_, exec_of_isRead rfl _, bytesOfWord_wordOfBytes .., wordOfBytes_toNat_div ..⟩,
    ⟨_, exec_of_isRead rfl _, bytesOfWord_wordOfBytes .., wordOfBytes_toNat_div ..⟩⟩

/-- Settles O20: the three registers fit a data word. -/
theorem counterReadsReturnValue : Obligations.CounterReadsReturnValue := fun s =>
  ⟨⟨_, exec_of_isRead rfl s, readOperand_toNat (by decide) s.block.hlen⟩,
    ⟨_, exec_of_isRead rfl s, readOperand_toNat (by decide) s.block.crc⟩,
    ⟨_, exec_of_isRead rfl s, readOperand_toNat (by decide) s.block.pcnt⟩⟩

/-- R7: two registers that read as the same word hold the same value. -/
theorem readOperand_inj {n : Nat} (h : n ≤ 32) {u v : BitVec n} (huv : readOperand u = readOperand v) : u = v := by
  rw [← writeOperand_readOperand h u, huv, writeOperand_readOperand h]

/-- R54: two header words are equal exactly when their bytes are. -/
theorem wordOfBytes_inj {b0 b1 b2 b3 c0 c1 c2 c3 : Byte} (h : wordOfBytes b0 b1 b2 b3 = wordOfBytes c0 c1 c2 c3) :
    b0 = c0 ∧ b1 = c1 ∧ b2 = c2 ∧ b3 = c3 := by
  have hbytes := congrArg bytesOfWord h
  simpa only [bytesOfWord_wordOfBytes, List.cons.injEq, and_true] using hbytes

/-- R120 to R122: the three header words show every byte of HDR. -/
theorem hdr_eq_of_words {h k : Vector Byte 12} (h0 : hdrWord0 h = hdrWord0 k) (h1 : hdrWord1 h = hdrWord1 k)
    (h2 : hdrWord2 h = hdrWord2 k) : h = k := by
  obtain ⟨e0, e1, e2, e3⟩ := wordOfBytes_inj h0
  obtain ⟨e4, e5, e6, e7⟩ := wordOfBytes_inj h1
  obtain ⟨e8, e9, e10, e11⟩ := wordOfBytes_inj h2
  refine Vector.ext fun i hi => ?_
  interval_cases i <;> assumption

/-- R110: bits 2:0 of STATUS are ERR. -/
@[simp] theorem statusWord_extractLsb'_err (b : Block) : (statusWord b).extractLsb' 0 3 = b.err := by
  rw [← BitVec.toNat_inj, BitVec.extractLsb'_toNat, statusWord_toNat]
  omega

/-- R7: a bit of a word, read off its value. -/
theorem getLsbD_eq_of_toNat {w : Word} {i : Nat} {bit : Bool} (h : w.toNat / 2 ^ i % 2 = bit.toNat) : w.getLsbD i = bit := by
  rw [← BitVec.testBit_toNat, Nat.testBit_eq_decide_div_mod_eq, h]
  cases bit <;> rfl

/-- R110: the flags of STATUS, each at its bit. -/
theorem statusWord_getLsbD (b : Block) :
    (statusWord b).getLsbD 4 = b.valid ∧ (statusWord b).getLsbD 5 = b.vdone ∧ (statusWord b).getLsbD 6 = b.excess ∧
      (statusWord b).getLsbD 7 = b.ftrunc ∧ (statusWord b).getLsbD 8 = b.hovf := by
  have hvalid := b.valid.toNat_le
  have hvdone := b.vdone.toNat_le
  have hexcess := b.excess.toNat_le
  have hftrunc := b.ftrunc.toNat_le
  have hhovf := b.hovf.toNat_le
  refine ⟨getLsbD_eq_of_toNat ?_, getLsbD_eq_of_toNat ?_, getLsbD_eq_of_toNat ?_, getLsbD_eq_of_toNat ?_,
    getLsbD_eq_of_toNat ?_⟩ <;> rw [statusWord_toNat] <;> omega

/-- R110 to R125: a block is what its reads show of it. -/
theorem block_eq_of_readWord {b c : Block} (h : ∀ i, isRead i = true → readWord i b = readWord i c) : b = c := by
  have hstatus : statusWord b = statusWord c := h .rdStatus rfl
  have hb := statusWord_getLsbD b
  have herr := statusWord_extractLsb'_err b
  rw [hstatus] at hb herr
  obtain ⟨hvalid, hvdone, hexcess, hftrunc, hhovf⟩ := hb
  obtain ⟨hvalid', hvdone', hexcess', hftrunc', hhovf'⟩ := statusWord_getLsbD c
  have hfields : b.fields = c.fields := by
    refine Fields.ext_get fun n => readOperand_inj n.width_le ?_
    cases n
    exacts [h .rdVersion rfl, h .rdAudioType rfl, h .rdSampleRate rfl, h .rdChannelCount rfl, h .rdFrameFlag rfl,
      h .rdFrameSeq rfl, h .rdTimestamp rfl, h .rdPayloadLen rfl, h .rdChecksum rfl]
  obtain ⟨⟩ := b
  obtain ⟨⟩ := c
  rw [Block.mk.injEq]
  exact ⟨hfields, hdr_eq_of_words (h .rdHdrW0 rfl) (h .rdHdrW1 rfl) (h .rdHdrW2 rfl),
    readOperand_inj (by decide) (h .rdHlen rfl), readOperand_inj (by decide) (h .rdCrc rfl),
    readOperand_inj (by decide) (h .rdPcnt rfl), herr.symm.trans (statusWord_extractLsb'_err _),
    hvalid.symm.trans hvalid', hvdone.symm.trans hvdone', hexcess.symm.trans hexcess', hftrunc.symm.trans hftrunc',
    hhovf.symm.trans hhovf'⟩

/-- R57: two words that one read can hand over from one state are equal. -/
theorem readWord_eq_of_exec {i : Instr} (hread : isRead i = true) {s : State} {w : Word}
    (h : exec i s = .next { s with readData := s.readData ++ [w] }) : readWord i s.block = w := by
  rw [exec_of_isRead hread, completeRead_eq_next] at h
  simpa using congrArg State.readData h

/-- Settles O22: each read hands over the same word of both blocks, and the words show every element. -/
theorem readsRevealWholeBlock : Obligations.ReadsRevealWholeBlock := by
  intro s t h
  refine block_eq_of_readWord fun i hread => ?_
  obtain ⟨w, hs, ht⟩ := h i hread
  rw [readWord_eq_of_exec hread hs, readWord_eq_of_exec hread ht]

end Sys2Proof.Machine
end

section
/-! The header codec's round trips: O24, O25. -/

namespace Sys2Proof.Machine

/-- R147: unpacking a packed header gives the record back, with the checksum it was packed with. -/
theorem unpack12_pack12 (f : Fields) (cs : BitVec 16) : unpack12 (pack12 f cs) = { f with checksum := cs } := by
  simp only [unpack12, pack12, Vector.getElem_mk, List.getElem_toArray, List.getElem_cons_zero, List.getElem_cons_succ,
    Fields.mk.injEq, ← BitVec.toNat_inj, toNat_append_eq_mul_add, BitVec.extractLsb'_toNat, Nat.shiftRight_eq_div_pow]
  omega

/-- Settles O24: the record comes back with its checksum; PACK leaves a full header, which UNPACK loads. -/
theorem unpackOfPackRoundTrips : Obligations.UnpackOfPackRoundTrips := by
  refine ⟨unpack12_pack12, fun s => ⟨_, _, exec_pack s, exec_unpack_of_full (Nat.lt_irrefl 12), ?_⟩⟩
  exact unpack12_pack12 s.block.fields s.block.fields.checksum

/-- Settles O25: by `pack12_unpack12`, whose zero-checksum form is the sequence that CRC_HDR.Z folds on a full header. -/
theorem packOfUnpackRoundTrips : Obligations.PackOfUnpackRoundTrips := by
  intro b
  refine ⟨pack12_unpack12 b, pack12_unpack12_zero_toList b, fun s hhdr hfull => ?_⟩
  rw [exec_crcHdrZ, Block.withFullHeader_of_full (Nat.not_lt.mpr hfull), pack12_unpack12_zero_toList, ← hhdr]
  rfl

end Sys2Proof.Machine
end

section
/-! Feeding a data port: O30, O36. -/

namespace Sys2Proof.Machine

/-- R76: a value that fits its target leaves FTRUNC alone. -/
theorem Block.flagTruncation_readOperand {n : Nat} (h : n ≤ 32) (v : BitVec n) (b : Block) :
    b.flagTruncation n (readOperand v) = b := by
  rw [Block.flagTruncation, lostBits_readOperand h, Bool.or_false]

/-- R80, R144: one write of FEED_HDR takes its byte into the header buffer. -/
theorem performAccess_hdrData (x : Byte) (s : State) :
    performAccess (Reg.hdrData.wr (readOperand x)) s = .next { s with block := s.block.appendHeader x } := by
  have hbyte : (readOperand x).setWidth 8 = x := writeOperand_readOperand (by decide) x
  rw [performAccess_of_ok (decodeAccess_wr .hdrData _), exec_wrHdrData, hbyte,
    Block.flagTruncation_readOperand (by decide)]

/-- R80, R164: one write of FEED_PAY takes its byte as a payload byte. -/
theorem performAccess_payData (x : Byte) (s : State) :
    performAccess (Reg.payData.wr (readOperand x)) s = .next { s with block := s.block.takePayload x } := by
  have hbyte : (readOperand x).setWidth 8 = x := writeOperand_readOperand (by decide) x
  rw [performAccess_of_ok (decodeAccess_wr .payData _), exec_wrPayData, hbyte, lostBits_readOperand (by decide),
    Bool.or_false]
  rfl

/-- R80: feeding a port folds the effect of its write over the bytes. -/
theorem performAll_feed {port : Reg} {effect : Byte → Block → Block}
    (h : ∀ x s, performAccess (port.wr (readOperand x)) s = .next { s with block := effect x s.block })
    (bytes : List Byte) (s : State) :
    performAll (feed port bytes) s = .next { s with block := bytes.foldl (fun b x => effect x b) s.block } := by
  induction bytes generalizing s with
  | nil => rfl
  | cons x rest ih => exact (performAll_cons_of_next (h x s) _).trans (ih _)

/-- R80, R71: a command that is issued performs its effect. -/
theorem performAccess_issue_effect (c : Command) (s : State) :
    performAccess (issue c) s = .next { s with block := commandEffect c s.block } :=
  (performAccess_issue c s).trans (exec_instr c s)

/-- R24: the header buffer with a list of bytes in it: the first 12, and zeros where the list is shorter. -/
def headerBuffer (bytes : List Byte) : Vector Byte 12 := Vector.ofFn fun i => bytes.getD i 0x00#8

/-- R24: byte `i` of the header buffer. -/
theorem headerBuffer_getElem (bytes : List Byte) (i : Nat) (hi : i < 12) :
    (headerBuffer bytes)[i] = bytes.getD i 0x00#8 := by
  rw [headerBuffer, Vector.getElem_ofFn]

/-- R146: the header buffer with no byte in it is all zero. -/
theorem headerBuffer_nil : headerBuffer [] = Vector.replicate 12 0x00#8 := by decide

/-- R24: 12 bytes fill the header buffer. -/
theorem headerBuffer_toList (h : Vector Byte 12) : headerBuffer h.toList = h := by
  refine Vector.ext fun i hi => ?_
  rw [headerBuffer_getElem, List.getD_eq_getElem _ _ (by simpa using hi), Vector.getElem_toList]

/-- R144: a byte stored at the index of the first free byte, if there is one, is one byte more in the buffer. -/
theorem headerBuffer_snoc (bytes : List Byte) (x : Byte) :
    headerBuffer (bytes ++ [x]) = (headerBuffer bytes).setIfInBounds bytes.length x := by
  refine Vector.ext fun i hi => ?_
  rw [headerBuffer_getElem, Vector.getElem_setIfInBounds, headerBuffer_getElem]
  split
  next heq =>
    subst heq
    simp
  next hne =>
    simp only [List.getD_eq_getElem?_getD, List.getElem?_append]
    split
    next => rfl
    next hge =>
      rw [List.getElem?_eq_none (by rw [List.length_singleton]; omega), List.getElem?_eq_none (by omega)]

/-- R144: the block whose emptied header buffer has been fed a list of bytes. -/
def Block.fedHeader (bytes : List Byte) (b : Block) : Block :=
  { b with
    hdr := headerBuffer bytes, hlen := BitVec.ofNat 4 (min bytes.length 12),
    hovf := b.hovf || decide (12 < bytes.length) }

/-- R24: HLEN counts the bytes fed, up to 12. -/
theorem Block.fedHeader_hlen_toNat (bytes : List Byte) (b : Block) :
    (b.fedHeader bytes).hlen.toNat = min bytes.length 12 := by
  rw [Block.fedHeader, BitVec.toNat_ofNat]
  omega

/-- R144, R146: an emptied header buffer has been fed no byte. -/
theorem Block.fedHeader_nil {b : Block} (hhdr : b.hdr = Vector.replicate 12 0x00#8) (hhlen : b.hlen = 0#4) :
    b.fedHeader [] = b := by
  have hhovf : (b.hovf || decide (12 < ([] : List Byte).length)) = b.hovf := Bool.or_false _
  rw [Block.fedHeader, hhovf, headerBuffer_nil, ← hhdr, List.length_nil, Nat.zero_min, ← hhlen]

/-- R144: a byte taken after the others is the last of the bytes fed. -/
theorem Block.appendHeader_fedHeader (bytes : List Byte) (x : Byte) (b : Block) :
    (b.fedHeader bytes).appendHeader x = b.fedHeader (bytes ++ [x]) := by
  have hlen := b.fedHeader_hlen_toNat bytes
  have hlen' := b.fedHeader_hlen_toNat (bytes ++ [x])
  rw [List.length_append, List.length_singleton] at hlen'
  by_cases hroom : bytes.length < 12
  · have hhlen : (b.fedHeader bytes).hlen + 1#4 = (b.fedHeader (bytes ++ [x])).hlen := by
      rw [← BitVec.toNat_inj, Block.hlen_add_one_toNat (by omega)]
      omega
    have hhovf : (b.fedHeader bytes).hovf = (b.fedHeader (bytes ++ [x])).hovf := by
      have hbefore : ¬ 12 < bytes.length := by omega
      have hafter : ¬ 12 < (bytes ++ [x]).length := by
        rw [List.length_append, List.length_singleton]
        omega
      simp only [Block.fedHeader, hbefore, hafter]
    have hhdr : (b.fedHeader bytes).hdr.setIfInBounds (b.fedHeader bytes).hlen.toNat x =
        (b.fedHeader (bytes ++ [x])).hdr := by
      rw [hlen, Nat.min_eq_left hroom.le]
      exact (headerBuffer_snoc bytes x).symm
    rw [Block.appendHeader_of_lt ((Block.hlen_lt_twelve_iff _).mpr (by omega)), hhdr, hhlen, hhovf]
    rfl
  · have hfull : 12 ≤ bytes.length := not_lt.mp hroom
    have hhlen : (b.fedHeader bytes).hlen = (b.fedHeader (bytes ++ [x])).hlen := by
      rw [← BitVec.toNat_inj]
      omega
    have hhdr : (b.fedHeader bytes).hdr = (b.fedHeader (bytes ++ [x])).hdr := 
      ((headerBuffer_snoc bytes x).trans (Vector.setIfInBounds_eq_of_size_le hfull)).symm
    have hhovf : (b.fedHeader (bytes ++ [x])).hovf = true := by
      simp [Block.fedHeader]
      omega
    rw [Block.appendHeader_of_not_lt (mt (Block.hlen_lt_twelve_iff _).mp (by omega)), hhdr, hhlen, ← hhovf]
    rfl

/-- R144: what a run of HDR_DATA bytes leaves in an emptied header buffer. -/
theorem foldl_appendHeader {b : Block} (hhdr : b.hdr = Vector.replicate 12 0x00#8) (hhlen : b.hlen = 0#4)
    (bytes : List Byte) : bytes.foldl (fun b x => b.appendHeader x) b = b.fedHeader bytes := by
  induction bytes using List.reverseRecOn with
  | nil => exact (Block.fedHeader_nil hhdr hhlen).symm
  | append_singleton bytes x ih =>
    rw [List.foldl_append, ih]
    exact b.appendHeader_fedHeader bytes x

/-- R144, R146: HDR_CLR and then FEED_HDR. -/
theorem performAll_hdrClr_feedHdr (bytes : List Byte) (s : State) :
    performAll (issue .hdrClr :: feedHdr bytes) s =
      .next { s with block := Block.fedHeader bytes (commandEffect .hdrClr s.block) } := by
  rw [performAll_cons_of_next (performAccess_issue_effect .hdrClr s), feedHdr,
    performAll_feed performAccess_hdrData, foldl_appendHeader rfl rfl]

/-- R24: the bytes of the header buffer, written out. -/
theorem toList_headerBuffer (bytes : List Byte) :
    (headerBuffer bytes).toList = bytes.take 12 ++ List.replicate (12 - bytes.length) 0x00#8 := by
  have hlength : (headerBuffer bytes).toList.length =
      (bytes.take 12 ++ List.replicate (12 - bytes.length) 0x00#8).length := by
    rw [Vector.length_toList, List.length_append, List.length_take, List.length_replicate]
    omega
  refine List.ext_getElem hlength fun i hi _ => ?_
  rw [Vector.length_toList] at hi
  rw [Vector.getElem_toList, headerBuffer_getElem _ _ hi, List.getElem_append]
  split
  next hlt => rw [List.getElem_take, List.getD_eq_getElem]
  next hge =>
    rw [List.length_take] at hge
    rw [List.getElem_replicate, List.getD_eq_default _ _ (by omega)]

/-- Settles O30: HDR_CLR empties the buffer, and the bytes fed into it are kept, counted and flagged as `Block.fedHeader`
says. -/
theorem feedHeaderKeepsFirstTwelve : Obligations.FeedHeaderKeepsFirstTwelve := by
  intro bytes s
  exact ⟨_, performAll_hdrClr_feedHdr bytes s, toList_headerBuffer bytes, Block.fedHeader_hlen_toNat .., rfl, rfl⟩

/-- R164: the block whose payload count has started at 0 and which has been fed a list of payload bytes. -/
def Block.fedPayload (bytes : List Byte) (b : Block) : Block :=
  { b with
    crc := crc16 (bytes.take b.fields.payload_len.toNat) b.crc,
    pcnt := BitVec.ofNat 32 (min bytes.length 0xFFFFFFFF) }

/-- R26: PCNT counts the bytes fed, up to its greatest value. -/
theorem Block.fedPayload_pcnt_toNat (bytes : List Byte) (b : Block) :
    (b.fedPayload bytes).pcnt.toNat = min bytes.length 0xFFFFFFFF := by
  rw [Block.fedPayload, BitVec.toNat_ofNat]
  omega

/-- R161: a byte after others belongs to the first `n` exactly when there are fewer than `n` of those. -/
theorem crc16_take_snoc (bytes : List Byte) (x : Byte) (n : Nat) (c : BitVec 16) :
    crc16 ((bytes ++ [x]).take n) c =
      if bytes.length < n then crcStep (crc16 (bytes.take n) c) x else crc16 (bytes.take n) c := by
  rw [List.take_append, crc16_append]
  split
  next hlt =>
    obtain ⟨k, hk⟩ := Nat.exists_eq_add_of_lt hlt
    rw [show n - bytes.length = k + 1 by omega, List.take_succ_cons, List.take_nil]
    rfl
  next hge =>
    rw [Nat.sub_eq_zero_of_le (not_lt.mp hge)]
    rfl

/-- R164: a payload byte taken after the others is the last of the bytes fed. -/
theorem Block.takePayload_fedPayload (bytes : List Byte) (x : Byte) (b : Block) :
    (b.fedPayload bytes).takePayload x = b.fedPayload (bytes ++ [x]) := by
  have hcount := b.fedPayload_pcnt_toNat bytes
  have hwindow : (b.fedPayload bytes).inPayloadWindow = true ↔ bytes.length < b.fields.payload_len.toNat := by
    have hlen := b.fields.payload_len.isLt
    rw [Block.inPayloadWindow_iff, hcount]
    change _ < b.fields.payload_len.toNat ↔ _
    omega
  have hcrc : ((b.fedPayload bytes).takePayload x).crc = (b.fedPayload (bytes ++ [x])).crc := by
    rw [Block.takePayload_crc]
    simp only [hwindow]
    exact (crc16_take_snoc ..).symm
  have hpcnt : ((b.fedPayload bytes).takePayload x).pcnt = (b.fedPayload (bytes ++ [x])).pcnt := by
    rw [← BitVec.toNat_inj, Block.takePayload_pcnt, saturatingIncrement_toNat, hcount, Block.fedPayload_pcnt_toNat,
      List.length_append, List.length_singleton]
    omega
  calc (b.fedPayload bytes).takePayload x
      = { b with
          crc := ((b.fedPayload bytes).takePayload x).crc, pcnt := ((b.fedPayload bytes).takePayload x).pcnt } := rfl
    _ = b.fedPayload (bytes ++ [x]) := by
      rw [hcrc, hpcnt]
      rfl

/-- R164: what a run of PAY_DATA bytes leaves where PCNT is 0. -/
theorem foldl_takePayload {b : Block} (hpcnt : b.pcnt = 0#32) (bytes : List Byte) :
    bytes.foldl (fun b x => b.takePayload x) b = b.fedPayload bytes := by
  induction bytes using List.reverseRecOn with
  | nil =>
    rw [Block.fedPayload, List.take_nil, List.length_nil, Nat.zero_min, ← hpcnt]
    rfl
  | append_singleton bytes x ih =>
    rw [List.foldl_append, ih]
    exact b.takePayload_fedPayload bytes x

/-- R80, R164: FEED_PAY where PCNT is 0. -/
theorem performAll_feedPay {s : State} (hpcnt : s.block.pcnt = 0#32) (bytes : List Byte) :
    performAll (feedPay bytes) s = .next { s with block := s.block.fedPayload bytes } := by
  rw [feedPay, performAll_feed performAccess_payData, foldl_takePayload hpcnt]

/-- Settles O36: CRC_INIT starts CRC at 0xFFFF and PCNT at 0, and the bytes fed are folded and counted as `Block.fedPayload`
says. -/
theorem feedPayloadFoldsWindow : Obligations.FeedPayloadFoldsWindow := by
  intro bytes s
  refine ⟨_, (performAll_cons_of_next (performAccess_issue_effect .crcInit s) _).trans (performAll_feedPay rfl bytes), rfl,
    Block.fedPayload_pcnt_toNat .., rfl⟩

end Sys2Proof.Machine
end

section
/-! The checksum's error detection: O32, O40, O41, O42. -/

namespace Sys2Proof.Machine

/-- Settles O32: the engine is run on the five sequences. -/
theorem crcCheckValues : Obligations.CrcCheckValues := by
  unfold Obligations.CrcCheckValues
  decide +kernel

/-- R160: a shift adds the polynomial where the top bit was 1. -/
theorem crcShift_eq_xor (c : BitVec 16) : crcShift c = (c <<< 1) ^^^ (if c.msb then Config.crcPoly else 0#16) := by
  rw [crcShift]
  split
  · rfl
  · rw [BitVec.xor_zero]

/-- R170: a shift is linear. -/
theorem crcShift_xor (a b : BitVec 16) : crcShift (a ^^^ b) = crcShift a ^^^ crcShift b := by
  have hpoly : (if (a.msb ^^ b.msb) then Config.crcPoly else 0#16) =
      (if a.msb then Config.crcPoly else 0#16) ^^^ (if b.msb then Config.crcPoly else 0#16) := by
    cases a.msb <;> cases b.msb <;> simp
  rw [crcShift_eq_xor, crcShift_eq_xor, crcShift_eq_xor, BitVec.shiftLeft_xor_distrib, BitVec.msb_xor, hpoly]
  ac_rfl

/-- R170: any number of shifts is linear. -/
theorem crcShifts_xor (n : Nat) (a b : BitVec 16) : crcShifts n (a ^^^ b) = crcShifts n a ^^^ crcShifts n b := by
  induction n generalizing a b with
  | zero => rfl
  | succ n ih => rw [crcShifts, crcShift_xor, ih, crcShifts, crcShifts]

/-- R171: a shift loses nothing: the polynomial's lowest bit records the top bit that it drops. -/
theorem crcShift_eq_zero {c : BitVec 16} (h : crcShift c = 0#16) : c = 0#16 := by
  rw [crcShift] at h
  split at h
  next hmsb =>
    have hbit : ((c <<< 1) ^^^ Config.crcPoly).getLsbD 0 = true := by simp [Config.crcPoly]
    rw [h] at hbit
    exact absurd hbit (by decide)
  next hmsb =>
    have hlow : 2 * c.toNat < 2 ^ 16 := BitVec.msb_eq_false_iff_two_mul_lt.mp (Bool.eq_false_iff.mpr hmsb)
    rw [← BitVec.toNat_inj, BitVec.toNat_shiftLeft, Nat.shiftLeft_eq, BitVec.toNat_ofNat] at h
    apply BitVec.eq_of_toNat_eq
    rw [BitVec.toNat_ofNat]
    omega

/-- R171: any number of shifts loses nothing. -/
theorem crcShifts_injective (n : Nat) : Function.Injective (crcShifts n) := by
  have hshift : Function.Injective crcShift := fun a b hab =>
    BitVec.xor_eq_zero_iff.mp (crcShift_eq_zero (by rw [crcShift_xor, hab, BitVec.xor_self]))
  rw [funext (crcShifts_eq_iterate n)]
  exact hshift.iterate n

/-- R160: shifts that drop no bit only move the register. -/
theorem crcShifts_of_lt {n : Nat} {c : BitVec 16} (h : c.toNat * 2 ^ n < 2 ^ 16) : crcShifts n c = c <<< n := by
  induction n generalizing c with
  | zero => rw [BitVec.shiftLeft_zero, crcShifts]
  | succ n ih =>
    have hpos : 0 < 2 ^ n := Nat.two_pow_pos n
    have hlow : 2 * c.toNat < 2 ^ 16 := by
      rw [Nat.pow_succ] at h
      nlinarith
    have hmsb : c.msb = false := BitVec.msb_eq_false_iff_two_mul_lt.mpr hlow
    have hdouble : (c <<< 1).toNat = c.toNat * 2 := by
      rw [BitVec.toNat_shiftLeft, Nat.shiftLeft_eq, Nat.mod_eq_of_lt (by omega), Nat.pow_one]
    rw [crcShifts, crcShift, hmsb, if_neg Bool.false_ne_true, ih, ← BitVec.shiftLeft_add, Nat.add_comm]
    rw [hdouble, Nat.mul_assoc, ← Nat.pow_succ']
    exact h

/-- R160: a byte in the low half of the register reaches the high half in eight shifts. -/
theorem crcShifts_eight_byte (x : Byte) : crcShifts 8 (x.setWidth 16) = x.setWidth 16 <<< 8 := by
  refine crcShifts_of_lt ?_
  rw [BitVec.toNat_setWidth]
  omega

/-- R170: folding one byte is linear in the register and the byte together. -/
theorem crcStep_xor (c d : BitVec 16) (x y : Byte) : crcStep (c ^^^ d) (x ^^^ y) = crcStep c x ^^^ crcStep d y := by
  rw [crcStep, crcStep, crcStep, ← crcShifts_xor, BitVec.setWidth_xor, BitVec.shiftLeft_xor_distrib]
  ac_rfl

/-- R170: folding two sequences of one length, from any two start values. -/
theorem crc16_xor {s t : List Byte} (h : s.length = t.length) (c d : BitVec 16) :
    crc16 s c ^^^ crc16 t d = crc16 (List.zipWith (· ^^^ ·) s t) (c ^^^ d) := by
  induction s generalizing t c d with
  | nil =>
    obtain rfl := List.length_eq_zero_iff.mp h.symm
    rfl
  | cons x s ih =>
    obtain _ | ⟨y, t⟩ := t
    · cases h
    · rw [crc16_cons, crc16_cons, ih (Nat.succ.inj h), List.zipWith_cons_cons, crc16_cons, crcStep_xor]

/-- Settles O40: folding is linear, and a start value's difference from itself is 0. -/
theorem crcIsAffine : Obligations.CrcIsAffine := by
  intro s t c h
  rw [crc16_xor h, BitVec.xor_self]

/-- R171: folding a sequence loses nothing of the register. -/
theorem crc16_injective (s : List Byte) : Function.Injective (crc16 s) := by
  induction s with
  | nil => exact fun _ _ => id
  | cons x s ih => exact fun c d h => BitVec.xor_left_inj _ |>.mp (crcShifts_injective 8 (ih h))

/-- R171: two bytes are folded by sixteen shifts of the register with the two bytes laid over it. -/
theorem crc16_pair (x y : Byte) (c : BitVec 16) :
    crc16 [x, y] c = crcShifts 8 (crcShifts 8 (c ^^^ (x ++ y : BitVec 16))) := by
  have hpair : (x.setWidth 16 <<< 8) ^^^ y.setWidth 16 = (x ++ y : BitVec 16) := by
    refine BitVec.eq_of_getLsbD_eq fun i hi => Eq.trans ?_ BitVec.getLsbD_append.symm
    by_cases hlow : i < 8
    · simp [hlow, hi]
    · simp [hlow, hi, BitVec.getLsbD_of_ge y i (not_lt.mp hlow)]
  rw [crc16_cons, crc16_cons, crc16_nil, crcStep, crcStep, ← crcShifts_eight_byte y, ← crcShifts_xor, BitVec.xor_assoc,
    hpair]

/-- Settles O41: sixteen shifts tell any two pairs of bytes apart, and the bytes after them lose nothing. -/
theorem neighbouringByteChangeDetected : Obligations.NeighbouringByteChangeDetected := by
  intro before after x y x' y' c hne heq
  rw [crc16_append, crc16_append, crc16_append, crc16_append] at heq
  have hpair := crc16_injective after heq
  rw [crc16_pair, crc16_pair] at hpair
  have happend : x ++ y = x' ++ y' :=
    (BitVec.xor_right_inj _).mp (crcShifts_injective 8 (crcShifts_injective 8 hpair))
  have hnat := congrArg BitVec.toNat happend
  rw [toNat_append_eq_mul_add, toNat_append_eq_mul_add] at hnat
  have hy := y.isLt
  have hy' := y'.isLt
  have hxeq : x = x' := BitVec.eq_of_toNat_eq (by omega)
  have hyeq : y = y' := BitVec.eq_of_toNat_eq (by omega)
  exact hne (by rw [hxeq, hyeq])

/-- R171: folding tells any two bytes apart. -/
theorem crcStep_injective (c : BitVec 16) : Function.Injective (crcStep c) := by
  intro x y h
  have hshifted := (BitVec.xor_right_inj c).mp (crcShifts_injective 8 h)
  rw [← crcShifts_eight_byte, ← crcShifts_eight_byte] at hshifted
  have hwide := congrArg (BitVec.setWidth 8) (crcShifts_injective 8 hshifted)
  simpa using hwide

/-- R171: a change of one byte of the checksum input is detected. -/
theorem crc16_set_ne {s : List Byte} {j : Nat} (hj : j < s.length) {x : Byte} (hx : s[j] ≠ x) (c : BitVec 16) :
    crc16 (s.set j x) c ≠ crc16 s c := by
  induction s generalizing j c with
  | nil => exact absurd hj (Nat.not_lt_zero j)
  | cons y s ih =>
    cases j with
    | zero => exact fun h => hx (crcStep_injective c (crc16_injective s h)).symm
    | succ j => exact ih (Nat.lt_of_succ_lt_succ hj) hx (crcStep c y)

end Sys2Proof.Machine
end

section
/-! The parity of the checksum register: O42. -/

namespace Sys2Proof.Machine

/-- R171: how many bits of a word of any width are 1. -/
def onesOf {n : Nat} (v : BitVec n) : Nat := (List.range n).countP v.getLsbD

/-- R171: an exclusive or has an odd number of 1 bits exactly when one of its operands has. -/
theorem countP_xor_mod_two (p q : Nat → Bool) (l : List Nat) :
    l.countP (fun i => p i ^^ q i) % 2 = (l.countP p + l.countP q) % 2 := by
  induction l with
  | nil => rfl
  | cons i l ih =>
    rw [List.countP_cons, List.countP_cons, List.countP_cons]
    cases p i <;> cases q i <;> simp <;> omega

/-- R171: the parity of an exclusive or. -/
theorem onesOf_xor {n : Nat} (v w : BitVec n) : onesOf (v ^^^ w) % 2 = (onesOf v + onesOf w) % 2 := by
  rw [onesOf, funext fun i => BitVec.getLsbD_xor (x := v) (y := w) (i := i)]
  exact countP_xor_mod_two ..

/-- R160: the 1 bits that a shift by one keeps are all but the top bit. -/
theorem onesOf_shiftLeft_one {n : Nat} (v : BitVec (n + 1)) : onesOf (v <<< 1) + v.msb.toNat = onesOf v := by
  have hmoved : (List.range n).countP ((v <<< 1).getLsbD ∘ Nat.succ) = (List.range n).countP v.getLsbD := by
    refine List.countP_congr fun i hi => ?_
    have hi' : i < n := List.mem_range.mp hi
    simp [hi', BitVec.getLsbD_eq_getElem (Nat.lt_succ_of_lt hi')]
  have htop : v.getLsbD n = v.msb := by rw [BitVec.msb_eq_getLsbD_last, Nat.add_sub_cancel]
  have hshifted : onesOf (v <<< 1) = (List.range n).countP v.getLsbD := by
    rw [onesOf, List.range_succ_eq_map, List.countP_cons, List.countP_map, hmoved]
    simp
  rw [hshifted, onesOf, List.range_succ, List.countP_append, List.countP_singleton, htop]
  cases v.msb <;> rfl

/-- R171: a shift keeps the parity: where it drops a 1 it adds the three bits of the polynomial. -/
theorem onesOf_crcShift (c : BitVec 16) : onesOf (crcShift c) % 2 = onesOf c % 2 := by
  have hkept := onesOf_shiftLeft_one c
  rw [crcShift]
  split
  next hmsb =>
    have hpoly : onesOf Config.crcPoly = 3 := rfl
    rw [hmsb, Bool.toNat_true] at hkept
    rw [onesOf_xor, hpoly]
    omega
  next hmsb =>
    rw [Bool.eq_false_iff.mpr hmsb, Bool.toNat_false] at hkept
    rw [← hkept, Nat.add_zero]

/-- R171: any number of shifts keeps the parity. -/
theorem onesOf_crcShifts (n : Nat) (c : BitVec 16) : onesOf (crcShifts n c) % 2 = onesOf c % 2 := by
  induction n generalizing c with
  | zero => rfl
  | succ n ih => rw [crcShifts, ih, onesOf_crcShift]

/-- R171: a byte has the same 1 bits in the register as outside it. -/
theorem onesOf_byte (x : Byte) : onesOf (x.setWidth 16) = onesIn x := by
  have hrange : List.range 16 = List.range 8 ++ (List.range 8).map (8 + ·) := rfl
  have hhigh : ((List.range 8).map (8 + ·)).countP (x.setWidth 16).getLsbD = 0 := by
    rw [List.countP_eq_zero]
    intro i hi
    obtain ⟨k, -, rfl⟩ := List.mem_map.mp hi
    simp
  have hlow : (List.range 8).countP (x.setWidth 16).getLsbD = onesIn x := by
    refine List.countP_congr fun i hi => ?_
    have hi' : i < 16 := (List.mem_range.mp hi).trans (by decide)
    simp [hi']
  rw [onesOf, hrange, List.countP_append, hhigh, hlow, Nat.add_zero]

/-- R171: folding a byte adds its parity to the register's. -/
theorem onesOf_crcStep (c : BitVec 16) (x : Byte) : onesOf (crcStep c x) % 2 = (onesOf c + onesIn x) % 2 := by
  have hbyte := onesOf_crcShifts 8 (x.setWidth 16)
  rw [crcShifts_eight_byte, onesOf_byte] at hbyte
  rw [crcStep, onesOf_crcShifts, onesOf_xor, Nat.add_mod, hbyte, ← Nat.add_mod]

/-- R171: folding a sequence adds the parity of its bits to the register's. -/
theorem onesOf_crc16 (s : List Byte) (c : BitVec 16) :
    onesOf (crc16 s c) % 2 = (onesOf c + (s.map onesIn).sum) % 2 := by
  induction s generalizing c with
  | nil => rfl
  | cons x s ih =>
    rw [crc16_cons, ih, Nat.add_mod, onesOf_crcStep, ← Nat.add_mod, List.map_cons, List.sum_cons, Nat.add_assoc]

/-- R171: the bits that differ are the 1 bits of the difference. -/
theorem differingBits_eq (s t : List Byte) : differingBits s t = ((List.zipWith (· ^^^ ·) s t).map onesIn).sum := by
  rw [differingBits, List.map_zipWith]

/-- Settles O42: equal checksums have the difference 0, whose parity is even; the difference of the sequences folds to it with
its own parity, which is odd. -/
theorem oddBitChangeDetected : Obligations.OddBitChangeDetected := by
  intro s t c hlength hodd heq
  have hparity := onesOf_crc16 (List.zipWith (· ^^^ ·) s t) 0x0000#16
  have hzero : onesOf 0x0000#16 = 0 := rfl
  rw [← crcIsAffine s t c hlength, heq, BitVec.xor_self, ← differingBits_eq, hzero, Nat.zero_add, hodd] at hparity
  exact absurd hparity (by decide)

end Sys2Proof.Machine
end

section
/-! Sequences of accesses of one kind, and the words that GET_HDR and GET_FIELDS read. -/

namespace Sys2Proof.Machine

/-- R100: a field write's access performs the truncating write of its field. -/
theorem performAccess_fieldWrite (n : FieldName) (w : Word) (s : State) :
    performAccess (n.reg.wr w) s =
      .next { s with block := truncWrite n.width (fun f v => f.put n v) w s.block } := by
  have haccess : (encode (n.writeInstr w)).toAccess = n.reg.wr w := by cases n <;> rfl
  rw [← haccess, performAccess_encode, exec_writeInstr]
  rfl

/-- R100: field writes one after the other are truncating writes in order. -/
theorem performAll_fieldWrites (writes : List (FieldName × Word)) (s : State) :
    performAll (writes.map fun write => write.1.reg.wr write.2) s =
      .next { s with
        block := writes.foldl (fun b write => truncWrite write.1.width (fun f v => f.put write.1 v) write.2 b) s.block } := by
  induction writes generalizing s with
  | nil => rfl
  | cons write rest ih => exact (performAll_cons_of_next (performAccess_fieldWrite write.1 write.2 s) _).trans (ih _)

/-- R79: commands issued one after the other perform their effects in order. -/
theorem performAll_issue (commands : List Command) (s : State) :
    performAll (commands.map issue) s =
      .next { s with block := commands.foldl (fun b c => commandEffect c b) s.block } := by
  induction commands generalizing s with
  | nil => rfl
  | cons c rest ih => exact (performAll_cons_of_next (performAccess_issue_effect c s) _).trans (ih _)

/-- R57: reads one after the other hand over their words in order, and change nothing else. -/
theorem performAll_reads {reads : List Instr} (h : ∀ i ∈ reads, isRead i = true) (s : State) :
    performAll (reads.map fun i => (encode i).toAccess) s =
      .next { s with readData := s.readData ++ reads.map fun i => readWord i s.block } := by
  induction reads generalizing s with
  | nil =>
    rw [List.map_nil, List.map_nil, List.append_nil]
    rfl
  | cons i rest ih =>
    obtain ⟨hi, hrest⟩ := List.forall_mem_cons.mp h
    have hfirst := (performAccess_encode i s).trans (exec_of_isRead hi s)
    rw [List.map_cons, performAll_cons_of_next hfirst, ih hrest, List.append_assoc]
    rfl

/-- R54: the three words of a header. -/
def headerWords (h : Vector Byte 12) : List Word := [hdrWord0 h, hdrWord1 h, hdrWord2 h]

/-- R80: GET_HDR reads the three words of HDR. -/
theorem performAll_getHdr (s : State) :
    performAll getHdr s = .next { s with readData := s.readData ++ headerWords s.block.hdr } :=
  performAll_reads (reads := [.rdHdrW0, .rdHdrW1, .rdHdrW2]) (by decide) s

/-- R187: the nine words of a field record. -/
def fieldWords (f : Fields) : List Word :=
  [readOperand f.version, readOperand f.audio_type, readOperand f.sample_rate, readOperand f.channel_count,
    readOperand f.frame_flag, readOperand f.frame_seq, readOperand f.timestamp, readOperand f.payload_len,
    readOperand f.checksum]

/-- R80: GET_FIELDS reads the nine words of the field registers. -/
theorem performAll_getFields (s : State) :
    performAll getFields s = .next { s with readData := s.readData ++ fieldWords s.block.fields } :=
  performAll_reads (reads := [.rdVersion, .rdAudioType, .rdSampleRate, .rdChannelCount, .rdFrameFlag, .rdFrameSeq,
    .rdTimestamp, .rdPayloadLen, .rdChecksum]) (by decide) s

/-- R187: the host takes back the record from its nine words. -/
theorem fieldsOfWords_fieldWords (f : Fields) : fieldsOfWords (fieldWords f) = some f := by
  have hget {n : Nat} (hn : n ≤ 32) (v : BitVec n) : (readOperand v).setWidth n = v := writeOperand_readOperand hn v
  simp [fieldsOfWords, fieldWords, hget]

/-- The 12 bytes of a header, one by one. -/
theorem toList_eq_getElem (h : Vector Byte 12) :
    h.toList = [h[0], h[1], h[2], h[3], h[4], h[5], h[6], h[7], h[8], h[9], h[10], h[11]] := by
  refine List.ext_getElem (by simp) fun i hi _ => ?_
  rw [Vector.length_toList] at hi
  rw [Vector.getElem_toList]
  interval_cases i <;> rfl

/-- R184, R54: the frame of a header's three words is the header's 12 bytes and the payload. -/
theorem frameOf_headerWords (h : Vector Byte 12) (p : List Byte) : frameOf (headerWords h) p = h.toList ++ p := by
  rw [frameOf, headerWords, toList_eq_getElem]
  simp only [List.flatMap_cons, List.flatMap_nil, hdrWord0, hdrWord1, hdrWord2, bytesOfWord_wordOfBytes]
  rfl

end Sys2Proof.Machine
end

section
/-! ASSEMBLE: O54. -/

namespace Sys2Proof.Machine

/-- R76: a word fits a width exactly when a write to it loses no bit. -/
theorem lostBits_eq_not_fitsWidth (n : Nat) (w : Word) : lostBits n w = !fitsWidth n w := by
  rw [lostBits_eq_decide, fitsWidth, ← decide_not]
  simp only [Nat.not_lt]

/-- R184: the block after ASSEMBLE's field writes: the descriptive fields and `payload_len` are the masked words, the
checksum register is as before, and FTRUNC records a word that does not fit. -/
def Block.described (h : HostHeader) (len : Word) (b : Block) : Block :=
  { b with
    fields := { h.masked with payload_len := writeOperand 16 len, checksum := b.fields.checksum },
    ftrunc := b.ftrunc || !(h.descriptiveInRange && fitsWidth 16 len) }

/-- R184: ASSEMBLE's field writes. -/
theorem performAll_setDescriptive (h : HostHeader) (len : Word) (s : State) :
    performAll (setDescriptive h ++ [Reg.payloadLen.wr len]) s = .next { s with block := s.block.described h len } := by
  have hftrunc : ((((((((s.block.ftrunc || lostBits 4 h.version) || lostBits 8 h.audio_type) || lostBits 16 h.sample_rate) ||
      lostBits 2 h.channel_count) || lostBits 2 h.frame_flag) || lostBits 16 h.frame_seq) || lostBits 16 h.timestamp) ||
      lostBits 16 len) = (s.block.ftrunc || !(h.descriptiveInRange && fitsWidth 16 len)) := by
    simp only [lostBits_eq_not_fitsWidth, HostHeader.descriptiveInRange, Bool.not_and, Bool.or_assoc]
  rw [Block.described, ← hftrunc]
  exact performAll_fieldWrites [(.version, h.version), (.audioType, h.audio_type), (.sampleRate, h.sample_rate),
    (.channelCount, h.channel_count), (.frameFlag, h.frame_flag), (.frameSeq, h.frame_seq), (.timestamp, h.timestamp),
    (.payloadLen, len)] s

/-- R161, R184: the checksum of a frame is that of its packed header, carried on over the payload. -/
theorem crc16_frameChecksum (f : Fields) (p : List Byte) :
    crc16 p (crc16 (pack12 f 0x0000#16).toList 0xFFFF#16) = frameChecksum f p := by
  rw [frameChecksum, checksumOf, crc16_append, Config.crcInitValue]

/-- R140: packing does not read the checksum register. -/
theorem pack12_set_checksum (f : Fields) (cs k : BitVec 16) : pack12 { f with checksum := cs } k = pack12 f k := rfl

/-- R140, R184: the checksum of a frame does not depend on the checksum register. -/
theorem frameChecksum_set_checksum (f : Fields) (cs : BitVec 16) (p : List Byte) :
    frameChecksum { f with checksum := cs } p = frameChecksum f p := by
  rw [frameChecksum, pack12_set_checksum, frameChecksum]

/-- R143, R162, R165: PACK.Z, CRC_INIT and CRC_HDR start the checksum with the header packed with a zero checksum. -/
theorem commandEffect_startChecksum (b : Block) :
    commandEffect .crcHdr (commandEffect .crcInit (commandEffect .packZ b)) =
      { b with
        hdr := pack12 b.fields 0x0000#16, hlen := 12#4, crc := crc16 (pack12 b.fields 0x0000#16).toList 0xFFFF#16,
        pcnt := 0#32, valid := false, vdone := false, excess := false, err := 0#3 } := rfl

/-- R167, R142: CRC_SET and PACK put the checksum into the fields and the header. -/
theorem commandEffect_finishChecksum (b : Block) :
    commandEffect .pack (commandEffect .crcSet b) =
      { b with
        fields := { b.fields with checksum := b.crc }, hdr := pack12 b.fields b.crc, hlen := 12#4, err := 0#3 } := rfl

/-- R184: the block in which the frame of the field registers and a payload has been built. -/
def Block.framed (p : List Byte) (b : Block) : Block :=
  { b with
    fields := { b.fields with checksum := frameChecksum b.fields p }, hdr := pack12 b.fields (frameChecksum b.fields p),
    hlen := 12#4, crc := frameChecksum b.fields p, pcnt := BitVec.ofNat 32 p.length, valid := false, vdone := false,
    excess := false, err := 0#3 }

/-- R184: from PACK.Z to PACK, on a payload of the declared length. -/
theorem commandEffect_framed {b : Block} {p : List Byte} (hp : p.length = b.fields.payload_len.toNat) :
    commandEffect .pack (commandEffect .crcSet (Block.fedPayload p
      (commandEffect .crcHdr (commandEffect .crcInit (commandEffect .packZ b))))) = b.framed p := by
  have htake : p.take b.fields.payload_len.toNat = p := List.take_of_length_le hp.le
  have hlen := b.fields.payload_len.isLt
  have hcount : min p.length 0xFFFFFFFF = p.length := by omega
  rw [commandEffect_startChecksum, commandEffect_finishChecksum, Block.framed]
  simp only [Block.fedPayload, htake, hcount, crc16_frameChecksum]

/-- R184: the header of an assembled frame. -/
def assembledFields (h : HostHeader) (p : List Byte) : Fields :=
  { h.masked with
    payload_len := BitVec.ofNat 16 p.length,
    checksum := frameChecksum { h.masked with payload_len := BitVec.ofNat 16 p.length } p }

/-- R184: the checksum of an assembled frame is that of its own header and payload. -/
theorem assembledFields_checksum (h : HostHeader) (p : List Byte) :
    (assembledFields h p).checksum = frameChecksum (assembledFields h p) p := by
  simp only [assembledFields, frameChecksum_set_checksum { h.masked with payload_len := BitVec.ofNat 16 p.length }]

/-- R184: the block that ASSEMBLE leaves. -/
def Block.assembled (h : HostHeader) (p : List Byte) (b : Block) : Block :=
  (b.described h (BitVec.ofNat 32 p.length)).framed p

/-- R184, R76: a payload's length, written to its field. -/
theorem writeOperand_length (p : List Byte) : writeOperand 16 (BitVec.ofNat 32 p.length) = BitVec.ofNat 16 p.length := by
  rw [← BitVec.toNat_inj, writeOperand_toNat, BitVec.toNat_ofNat, BitVec.toNat_ofNat]
  omega

/-- R184: the field registers after ASSEMBLE. -/
theorem Block.assembled_fields (h : HostHeader) (p : List Byte) (b : Block) :
    (b.assembled h p).fields = assembledFields h p := by
  rw [Block.assembled, Block.framed, Block.described, writeOperand_length, assembledFields]
  simp only [frameChecksum_set_checksum { h.masked with payload_len := BitVec.ofNat 16 p.length }]

/-- R184: HDR after ASSEMBLE. -/
theorem Block.assembled_hdr (h : HostHeader) (p : List Byte) (b : Block) :
    (b.assembled h p).hdr = pack12 (assembledFields h p) (assembledFields h p).checksum := by
  rw [← b.assembled_fields, Block.assembled, Block.framed]
  simp only [pack12_set_checksum]

/-- R184: ASSEMBLE, from any state. -/
theorem performAll_assemble (h : HostHeader) {p : List Byte} (hp : p.length ≤ 65535) (s : State) :
    performAll (assembleAccesses h p) s =
      .next { s with
        block := s.block.assembled h p,
        readData := s.readData ++ headerWords (pack12 (assembledFields h p) (assembledFields h p).checksum) } := by
  have hsplit : assembleAccesses h p =
      (setDescriptive h ++ [Reg.payloadLen.wr (BitVec.ofNat 32 p.length)]) ++ ([.packZ, .crcInit, .crcHdr].map issue ++
        (feedPay p ++ ([.crcSet, .pack].map issue ++ getHdr))) := by
    simp [assembleAccesses]
  have hlen : p.length = (s.block.described h (BitVec.ofNat 32 p.length)).fields.payload_len.toNat := by
    rw [Block.described, writeOperand_length, BitVec.toNat_ofNat]
    omega
  rw [hsplit, performAll_append_of_next (performAll_setDescriptive h _ s),
    performAll_append_of_next (performAll_issue _ _), performAll_append_of_next (performAll_feedPay rfl p),
    performAll_append_of_next (performAll_issue _ _), performAll_getHdr]
  simp only [List.foldl_cons, List.foldl_nil, commandEffect_framed hlen]
  rw [← s.block.assembled_hdr h p, Block.assembled]

/-- R184: the length of a payload that ASSEMBLE takes fits its field. -/
theorem fitsWidth_length {p : List Byte} (hp : p.length ≤ 65535) : fitsWidth 16 (BitVec.ofNat 32 p.length) = true := by
  rw [fitsWidth, BitVec.toNat_ofNat, decide_eq_true_eq]
  omega

/-- Settles O54: the fields, the header read back, the count and FTRUNC are those of the assembled block. -/
theorem assembleBuildsFrame : Obligations.AssembleBuildsFrame := by
  intro h p s
  split
  next hp =>
    have hpcnt : (s.block.assembled h p).pcnt.toNat = p.length := by
      rw [Block.assembled, Block.framed, BitVec.toNat_ofNat]
      omega
    have hftrunc : (s.block.assembled h p).ftrunc = (s.block.ftrunc || !h.descriptiveInRange) := by
      rw [Block.assembled, Block.framed, Block.described, fitsWidth_length hp, Bool.and_true]
    refine ⟨assembledFields h p, _, _, by rw [assembledFields], ?_, if_pos hp, performAll_assemble h hp s, rfl,
      frameOf_headerWords _ p, s.block.assembled_fields h p, rfl, hpcnt, hftrunc, rfl⟩
    rw [assembledFields_checksum, frameChecksum, checksumOf, Config.crcInitValue]
  next hp => exact if_neg hp

end Sys2Proof.Machine
end

section
/-! VERIFY: O55, O56, O57, O58. -/

namespace Sys2Proof.Machine

/-- R164: payload bytes leave HLEN and the field registers alone. -/
@[simp] theorem Block.fedPayload_hlen (bytes : List Byte) (b : Block) : (b.fedPayload bytes).hlen = b.hlen := rfl
@[simp] theorem Block.fedPayload_fields (bytes : List Byte) (b : Block) : (b.fedPayload bytes).fields = b.fields := rfl

/-- R185: the block that VERIFY's VCHECK finds. -/
def Block.received (m : List Byte) (b : Block) : Block :=
  Block.fedPayload (m.drop 12) (commandEffect .crcHdrZ (commandEffect .crcInit (commandEffect .unpack
    (Block.fedHeader (m.take 12) (commandEffect .hdrClr b)))))

/-- R185: the block that VERIFY leaves. -/
def Block.verified (m : List Byte) (b : Block) : Block := (b.received m).verify Config.rejectExcess

/-- R162, R166: PCNT is 0 after CRC_INIT and CRC_HDR.Z, whether the header is full or not. -/
theorem commandEffect_crcInit_crcHdrZ_pcnt (b : Block) :
    (commandEffect .crcHdrZ (commandEffect .crcInit b)).pcnt = 0#32 := by
  obtain ⟨-, -, -, hpcnt | hinit, -⟩ := commandEffect_writers .crcHdrZ (commandEffect .crcInit b)
  · exact hpcnt
  · cases hinit

/-- R110: the access RD STATUS. -/
theorem performAccess_rdStatus (s : State) :
    performAccess Reg.status.rd s = .next { s with readData := s.readData ++ [statusWord s.block] } :=
  (performAccess_encode .rdStatus s).trans (exec_rdStatus s)

/-- R185: VERIFY, from any state: the words read are STATUS and the nine fields. -/
theorem performAll_verify (m : List Byte) (s : State) :
    performAll (verifyAccesses m) s =
      .next { s with
        block := s.block.verified m,
        readData := s.readData ++ statusWord (s.block.verified m) :: fieldWords (s.block.verified m).fields } := by
  have hsplit : verifyAccesses m =
      (issue .hdrClr :: feedHdr (m.take 12)) ++ ([.unpack, .crcInit, .crcHdrZ].map issue ++ (feedPay (m.drop 12) ++
        (issue .vcheck :: Reg.status.rd :: getFields))) := by
    simp [verifyAccesses]
  rw [hsplit, performAll_append_of_next (performAll_hdrClr_feedHdr _ s), performAll_append_of_next (performAll_issue _ _),
    performAll_append_of_next (performAll_feedPay (commandEffect_crcInit_crcHdrZ_pcnt _) _),
    performAll_cons_of_next (performAccess_issue_effect .vcheck _),
    performAll_cons_of_next (performAccess_rdStatus _), performAll_getFields,
    List.append_assoc]
  rfl

/-- R185: the host's result, on the block that VERIFY leaves. -/
theorem verifyResult_words (m : List Byte) (b : Block) :
    verifyResult m (statusWord b :: fieldWords b.fields) =
      if b.err = 1#3 then some .truncatedHeader
      else if b.err = 2#3 then some .truncatedFrame
      else if b.err = 3#3 then some .lengthExcess
      else if b.err = 0#3 ∧ b.vdone = true then
        some (.checked b.fields ((m.drop 12).take b.fields.payload_len.toNat) b.valid b.excess)
      else none := by
  obtain ⟨hvalid, hvdone, hexcess, -, -⟩ := statusWord_getLsbD b
  rw [verifyResult, statusWord_extractLsb'_err, hvalid, hvdone, hexcess, fieldsOfWords_fieldWords, Option.map_some]
  rfl

/-- R203: UNPACK and CRC_HDR.Z on a short header record TRUNCATED_HEADER and do nothing else. -/
theorem commandEffect_of_short {c : Command} (hc : c = .unpack ∨ c = .crcHdrZ) {b : Block} (h : b.hlen.toNat < 12) :
    commandEffect c b = b.result 1#3 := by
  obtain rfl | rfl := hc <;> rw [commandEffect, Block.withFullHeader_of_short h, Block.result]

/-- R185: a message of fewer than 12 bytes leaves a short header, and the fields as they were. -/
theorem Block.received_of_short {m : List Byte} (hm : m.length < 12) (b : Block) :
    (b.received m).hlen.toNat < 12 ∧ (b.received m).fields = b.fields := by
  have hshort : (Block.fedHeader m (commandEffect .hdrClr b)).hlen.toNat < 12 := by
    rw [Block.fedHeader_hlen_toNat]
    omega
  have hstarted :
      (commandEffect .crcInit ((Block.fedHeader m (commandEffect .hdrClr b)).result 1#3)).hlen.toNat < 12 := hshort
  rw [Block.received, List.take_of_length_le hm.le, commandEffect_of_short (.inl rfl) hshort,
    commandEffect_of_short (.inr rfl) hstarted, Block.fedPayload_hlen, Block.fedPayload_fields, Block.result_hlen,
    Block.result_fields]
  exact ⟨hstarted, rfl⟩

/-- Settles O55: on a short header VCHECK's first path is taken, and neither it nor UNPACK touches the fields. -/
theorem verifyRejectsShortMessage : Obligations.VerifyRejectsShortMessage := by
  intro m s hm
  obtain ⟨hshort, hfields⟩ := s.block.received_of_short hm
  have hverified : s.block.verified m = (s.block.received m).failCheck 1#3 false := by
    rw [Block.verified, Block.verify_eq, if_pos hshort]
  refine ⟨_, _, performAll_verify m s, rfl, ?_⟩
  rw [verifyResult_words, hverified, Block.failCheck_err, if_pos rfl]
  exact ⟨rfl, rfl, rfl, rfl, hfields⟩

/-- R145: UNPACK on a full header loads the fields from it. -/
theorem commandEffect_unpack_of_full {b : Block} (h : ¬ b.hlen.toNat < 12) :
    commandEffect .unpack b = { b with fields := unpack12 b.hdr, err := 0#3 } := by
  rw [commandEffect, Block.withFullHeader_of_full h]
  rfl

/-- R166: CRC_HDR.Z on a full header folds its zero-checksum image. -/
theorem commandEffect_crcHdrZ_of_full {b : Block} (h : ¬ b.hlen.toNat < 12) :
    commandEffect .crcHdrZ b =
      { b with crc := crc16 (b.hdr.toList.take 10 ++ [0x00#8, 0x00#8]) b.crc, err := 0#3 } := by
  rw [commandEffect, Block.withFullHeader_of_full h]
  rfl

/-- R145, R162, R166: UNPACK, CRC_INIT and CRC_HDR.Z on a full header start the checksum with its zero-checksum image. -/
theorem commandEffect_startVerify {b : Block} (h : ¬ b.hlen.toNat < 12) :
    commandEffect .crcHdrZ (commandEffect .crcInit (commandEffect .unpack b)) =
      { b with
        fields := unpack12 b.hdr, crc := crc16 (b.hdr.toList.take 10 ++ [0x00#8, 0x00#8]) 0xFFFF#16, pcnt := 0#32,
        valid := false, vdone := false, excess := false, err := 0#3 } := by
  have hstarted : ¬ (commandEffect .crcInit { b with fields := unpack12 b.hdr, err := 0#3 }).hlen.toNat < 12 := h
  rw [commandEffect_unpack_of_full h, commandEffect_crcHdrZ_of_full hstarted]
  rfl

section
variable (hdr : Vector Byte 12) (rest : List Byte) (b : Block)

/-- R148, R185: the checksum that VERIFY recomputes over the zero-checksum image and the payload window is the frame's. -/
theorem crc16_verify : crc16 rest (crc16 (hdr.toList.take 10 ++ [0x00#8, 0x00#8]) 0xFFFF#16) =
    frameChecksum (unpack12 hdr) rest := by
  rw [← pack12_unpack12_zero_toList, crc16_frameChecksum]

/-- R185: 12 header bytes and a rest leave the header in HDR and in the fields, and the rest folded and counted. -/
theorem Block.received_of_full : b.received (hdr.toList ++ rest) =
    { b with
      fields := unpack12 hdr, hdr := hdr, hlen := 12#4,
      crc := frameChecksum (unpack12 hdr) (rest.take (unpack12 hdr).payload_len.toNat),
      pcnt := BitVec.ofNat 32 (min rest.length 0xFFFFFFFF), err := 0#3, valid := false, vdone := false, excess := false } := by
  have hlength : hdr.toList.length = 12 := Vector.length_toList
  have hfed : Block.fedHeader hdr.toList (commandEffect .hdrClr b) = { b with hdr := hdr, hlen := 12#4, err := 0#3 } := by
    rw [Block.fedHeader, headerBuffer_toList, hlength]
    simp [commandEffect, errNone]
  rw [Block.received, List.take_left' hlength, List.drop_left' hlength, hfed,
    commandEffect_startVerify (b := { b with hdr := hdr, hlen := 12#4, err := 0#3 }) (Nat.lt_irrefl 12)]
  simp only [Block.fedPayload, crc16_verify]

/-- R180, R185: what VERIFY of 12 header bytes and a rest leaves, by the length of the rest. -/
theorem Block.verified_of_full :
    b.verified (hdr.toList ++ rest) =
      if rest.length < (unpack12 hdr).payload_len.toNat then (b.received (hdr.toList ++ rest)).failCheck 2#3 false
      else if (unpack12 hdr).payload_len.toNat < rest.length ∧ Config.rejectExcess = true then
        (b.received (hdr.toList ++ rest)).failCheck 3#3 true
      else
        { b.received (hdr.toList ++ rest) with
          excess := decide ((unpack12 hdr).payload_len.toNat < rest.length),
          valid := frameChecksum (unpack12 hdr) (rest.take (unpack12 hdr).payload_len.toNat) == (unpack12 hdr).checksum,
          vdone := true, err := 0#3 } := by
  have hlen := (unpack12 hdr).payload_len.isLt
  have hbelow : min rest.length 0xFFFFFFFF < (unpack12 hdr).payload_len.toNat ↔
      rest.length < (unpack12 hdr).payload_len.toNat := by omega
  have habove : (unpack12 hdr).payload_len.toNat < min rest.length 0xFFFFFFFF ↔
      (unpack12 hdr).payload_len.toNat < rest.length := by omega
  have hcount : (BitVec.ofNat 32 (min rest.length 0xFFFFFFFF)).toNat = min rest.length 0xFFFFFFFF := by
    rw [BitVec.toNat_ofNat]
    omega
  rw [Block.verified, Block.verify_eq, Block.received_of_full]
  simp only [hcount, hbelow, habove]
  rfl

/-- R185: VERIFY of 12 header bytes and a rest leaves the unpacked header in the fields. -/
theorem Block.verified_of_full_fields : (b.verified (hdr.toList ++ rest)).fields = unpack12 hdr := by
  rw [Block.verified, Block.verify_frame, Block.received_of_full]

end

/-- Settles O56: by the outcomes of VERIFY on the length of the rest. -/
theorem verifyReportsFullMessage : Obligations.VerifyReportsFullMessage := by
  intro hdr rest s
  refine ⟨_, _, performAll_verify _ s, rfl, s.block.verified_of_full_fields hdr rest, ?_⟩
  rw [verifyResult_words, s.block.verified_of_full_fields, s.block.verified_of_full,
    List.drop_left' (Vector.length_toList (xs := hdr))]
  by_cases hshort : rest.length < (unpack12 hdr).payload_len.toNat
  · rw [if_pos hshort, if_pos hshort, Block.failCheck_err]
    simp
  rw [if_neg hshort, if_neg hshort]
  by_cases hexcess : (unpack12 hdr).payload_len.toNat < rest.length ∧ Config.rejectExcess = true
  · rw [if_pos hexcess, if_pos hexcess, Block.failCheck_err]
    simp
  · rw [if_neg hexcess, if_neg hexcess]
    simp

/-- R185, R180: VERIFY of a frame whose payload has the declared length ends with a check done, whose verdict is the
comparison of the checksums. -/
theorem Block.verified_of_exact {hdr : Vector Byte 12} {rest : List Byte}
    (hrest : rest.length = (unpack12 hdr).payload_len.toNat) (b : Block) :
    (b.verified (hdr.toList ++ rest)).err = 0#3 ∧ (b.verified (hdr.toList ++ rest)).vdone = true ∧
      (b.verified (hdr.toList ++ rest)).excess = false ∧
      (b.verified (hdr.toList ++ rest)).valid = (frameChecksum (unpack12 hdr) rest == (unpack12 hdr).checksum) := by
  rw [Block.verified_of_full, if_neg hrest.not_lt, if_neg fun h => hrest.not_gt h.1, List.take_of_length_le hrest.le]
  exact ⟨rfl, rfl, decide_eq_false hrest.not_gt, rfl⟩

/-- R147: a header packed with its own checksum unpacks to itself. -/
theorem unpack12_pack12_self (f : Fields) : unpack12 (pack12 f f.checksum) = f := unpack12_pack12 f f.checksum

/-- Settles O57: the frame of an assembled header unpacks to that header, whose checksum is the frame's. -/
theorem assembledFrameVerifies : Obligations.AssembledFrameVerifies := by
  intro h p s r hp
  have hunpack := unpack12_pack12_self (assembledFields h p)
  have hlen : p.length = (unpack12 (pack12 (assembledFields h p) (assembledFields h p).checksum)).payload_len.toNat := by
    rw [hunpack, assembledFields, BitVec.toNat_ofNat]
    omega
  obtain ⟨herr, hvdone, hexcess, hvalid⟩ := r.block.verified_of_exact hlen
  rw [hunpack, ← assembledFields_checksum, beq_self_eq_true] at hvalid
  refine ⟨_, _, _, performAll_assemble h hp s, rfl, performAll_verify _ r, ?_⟩
  simp only [frameOf_headerWords, s.block.assembled_fields, Block.verified_of_full_fields, hunpack]
  refine ⟨herr, hvdone, hvalid, hexcess, trivial, ?_⟩
  rw [assembledFields]

/-- R184, R166: the sequence that a received frame's checksum is taken over. -/
theorem frameChecksum_unpack12 (hdr : Vector Byte 12) (p : List Byte) :
    frameChecksum (unpack12 hdr) p = crc16 (hdr.toList.take 10 ++ [0x00#8, 0x00#8] ++ p) 0xFFFF#16 := by
  rw [frameChecksum, checksumOf, pack12_unpack12_zero_toList, Config.crcInitValue]

/-- R189: a changed payload byte changes the checksum. -/
theorem frameChecksum_set_payload_ne (f : Fields) {p : List Byte} {k : Nat} (hk : k < p.length) {x : Byte}
    (hx : p[k] ≠ x) : frameChecksum f (p.set k x) ≠ frameChecksum f p := by
  rw [← crc16_frameChecksum, ← crc16_frameChecksum]
  exact crc16_set_ne hk hx _

/-- R189: a changed header byte outside the checksum field changes the checksum. -/
theorem frameChecksum_set_header_ne {hdr : Vector Byte 12} {j : Nat} (hj : j < 10) {x : Byte} (hx : hdr[j] ≠ x)
    (p : List Byte) : frameChecksum (unpack12 (hdr.set j x)) p ≠ frameChecksum (unpack12 hdr) p := by
  have hlt : j < (hdr.toList.take 10).length := by
    rw [List.length_take, Vector.length_toList]
    omega
  have hset : (hdr.set j x).toList.take 10 = (hdr.toList.take 10).set j x := by
    rw [Vector.toList_set, List.take_set]
  have hbyte : (hdr.toList.take 10)[j] ≠ x := by
    rwa [List.getElem_take, Vector.getElem_toList]
  rw [frameChecksum_unpack12, frameChecksum_unpack12, hset, crc16_append, crc16_append, crc16_append, crc16_append]
  intro heq
  exact crc16_set_ne hlt hbyte _ (crc16_injective _ (crc16_injective _ heq))

/-- R166: the checksum of a received frame does not depend on the checksum bytes of its header. -/
theorem frameChecksum_set_checksum_byte (hdr : Vector Byte 12) {j : Nat} (hj : j < 12) (hge : 10 ≤ j) (x : Byte)
    (p : List Byte) : frameChecksum (unpack12 (hdr.set j x)) p = frameChecksum (unpack12 hdr) p := by
  have hset : (hdr.set j x).toList.take 10 = hdr.toList.take 10 := by
    rw [Vector.toList_set, List.take_set_of_le hge]
  rw [frameChecksum_unpack12, frameChecksum_unpack12, hset]

/-- R141: the checksum field of a header is its bytes 10 and 11. -/
theorem unpack12_set_checksum_ne {hdr : Vector Byte 12} {j : Nat} (hj : j < 12) (hge : 10 ≤ j) {x : Byte}
    (hx : hdr[j] ≠ x) : (unpack12 (hdr.set j x)).checksum ≠ (unpack12 hdr).checksum := by
  have hj' : j = 10 ∨ j = 11 := by omega
  intro heq
  have hnat := congrArg BitVec.toNat heq
  simp only [unpack12] at hnat
  obtain rfl | rfl := hj'
  all_goals
    rw [Vector.getElem_set_self, Vector.getElem_set_ne _ _ (by decide), toNat_append_eq_mul_add,
      toNat_append_eq_mul_add] at hnat
    exact hx (BitVec.eq_of_toNat_eq (by omega))

/-- R141: a byte below byte 10 is none of the checksum field's. -/
theorem unpack12_set_checksum {hdr : Vector Byte 12} {j : Nat} (hj : j < 10) (x : Byte) :
    (unpack12 (hdr.set j x)).checksum = (unpack12 hdr).checksum := by
  simp only [unpack12]
  rw [Vector.getElem_set_ne _ _ (by omega), Vector.getElem_set_ne _ _ (by omega)]

/-- R141: the length field of a header is its bytes 8 and 9. -/
theorem unpack12_set_payload_len {hdr : Vector Byte 12} {j : Nat} (hj : j < 12) (h8 : j ≠ 8) (h9 : j ≠ 9) (x : Byte) :
    (unpack12 (hdr.set j x)).payload_len = (unpack12 hdr).payload_len := by
  simp only [unpack12]
  rw [Vector.getElem_set_ne _ _ (by omega), Vector.getElem_set_ne _ _ (by omega)]

/-- R185: VERIFY of a frame whose payload has the declared length and whose checksum is not the transmitted one. -/
theorem performAll_verify_of_mismatch {hdr : Vector Byte 12} {rest : List Byte}
    (hrest : rest.length = (unpack12 hdr).payload_len.toNat)
    (hmismatch : frameChecksum (unpack12 hdr) rest ≠ (unpack12 hdr).checksum) (s : State) :
    ∃ t, performAll (verifyAccesses (hdr.toList ++ rest)) s = .next t ∧
      t.block.err = 0#3 ∧ t.block.vdone = true ∧ t.block.valid = false := by
  obtain ⟨herr, hvdone, -, hvalid⟩ := s.block.verified_of_exact hrest
  exact ⟨_, performAll_verify _ s, herr, hvdone, hvalid.trans (beq_false_of_ne hmismatch)⟩

/-- R189: a frame with a right checksum, one byte of whose header outside `payload_len` is changed, has a wrong one. -/
theorem frameChecksum_ne_of_set_header {hdr : Vector Byte 12} {p : List Byte}
    (hsum : frameChecksum (unpack12 hdr) p = (unpack12 hdr).checksum) {j : Nat} (hj : j < 12) {x : Byte}
    (hx : hdr[j] ≠ x) :
    frameChecksum (unpack12 (hdr.set j x)) p ≠ (unpack12 (hdr.set j x)).checksum := by
  by_cases hlow : j < 10
  · rw [unpack12_set_checksum hlow, ← hsum]
    exact frameChecksum_set_header_ne hlow hx p
  · have hge : 10 ≤ j := not_lt.mp hlow
    rw [frameChecksum_set_checksum_byte hdr hj hge, hsum]
    exact (unpack12_set_checksum_ne hj hge hx).symm

/-- Settles O58: a changed payload byte or header byte below byte 10 changes the checksum that is recomputed, and a changed
byte 10 or 11 the one that was transmitted. -/
theorem tamperedByteIsNotValid : Obligations.TamperedByteIsNotValid := by
  intro f p j x s hp hj h8 h9 hx
  have hunpack : unpack12 (pack12 f (frameChecksum f p)) = { f with checksum := frameChecksum f p } := unpack12_pack12 _ _
  have hsum : frameChecksum (unpack12 (pack12 f (frameChecksum f p))) p =
      (unpack12 (pack12 f (frameChecksum f p))).checksum := by
    rw [hunpack, frameChecksum_set_checksum]
  have hlen : p.length = (unpack12 (pack12 f (frameChecksum f p))).payload_len.toNat := by
    rw [hunpack]
    exact hp
  generalize pack12 f (frameChecksum f p) = hdr at hx hsum hlen ⊢
  have hlength : hdr.toList.length = 12 := Vector.length_toList
  by_cases hheader : j < 12
  · rw [List.getElem?_append_left (by omega), List.getElem?_eq_getElem (by omega), Vector.getElem_toList, ne_eq,
      Option.some.injEq] at hx
    rw [List.set_append_left _ _ (by omega), ← Vector.toList_set (h := hheader)]
    refine performAll_verify_of_mismatch ?_ (frameChecksum_ne_of_set_header hsum hheader hx) s
    rw [unpack12_set_payload_len hheader h8 h9, hlen]
  · have hpayload : j - 12 < p.length := by omega
    rw [List.getElem?_append_right (by omega), hlength, List.getElem?_eq_getElem hpayload, ne_eq, Option.some.injEq] at hx
    rw [List.set_append_right _ _ (by omega), hlength]
    refine performAll_verify_of_mismatch ?_ ?_ s
    · rw [List.length_set, hlen]
    · rw [← hsum]
      exact frameChecksum_set_payload_ne _ hpayload hx

end Sys2Proof.Machine
end
